-- ==== Sys2Proof/Word.lean ====
section
/-!
DEFINITION. The word types of the part: the byte of a frame (R180) and the 32-bit word of the time count (R117).
-/
namespace Sys2Proof

/-- One byte of a frame or of a transaction (R180). -/
abbrev Byte := BitVec 8

/-- A 32-bit value: a time, a distance, a period, a position (R180). -/
abbrev Word := BitVec 32

/-- An entry number, 0 to 255 (R2). -/
abbrev EntryId := Fin 256

end Sys2Proof
end

