-- ==== Sys2Proof/Syntax.lean ====
section
/-!
DEFINITION. The steps of the part: one constructor for each row of spec/opcode_table.json. A step is a command as the
table controller takes it, or one event of a block (00 section 3.4). What the step carries is what comes from outside:
the frame's SEQ and body, the level of a pin, the bits of SDI, the samples of RXD and of the inputs, the
cycles of a clock.
-/
namespace Sys2Proof

/-- The two ports (01 R11, Table 10.1). -/
inductive Port where
  | spi
  | link
deriving DecidableEq, Repr

/-- The other port: the receiver of GIVE (R18). -/
def Port.other : Port → Port
  | .spi => .link
  | .link => .spi

/-- Where a command frame came from: the SPI port, a link frame to the part's own address, or a link frame to
address 0 (R136, R164). -/
inductive Source where
  | spi
  | link
  | broadcast
deriving DecidableEq, Repr

/-- The issuing port: a broadcast frame carries a link command (R133, R136). -/
def Source.port : Source → Port
  | .spi => .spi
  | .link => .link
  | .broadcast => .link

/-- Whether the frame was addressed to address 0 (R136). -/
def Source.isBroadcast : Source → Bool
  | .broadcast => true
  | _ => false

/-- A command as the controller takes it: its source, its SEQ and its body bytes (Table 10.7). -/
structure Cmd where
  src : Source
  seq : Byte
  body : List Byte
deriving DecidableEq, Repr

/-- What the trigger inputs and the FREEZE pin show at one rising edge of REFCLK: bit n is Tn; and whether the FREEZE pin
is asserted (R73, R121). -/
structure InputSample where
  triggers : BitVec 8
  freezePin : Bool
deriving DecidableEq, Repr

/-- The level of one trigger input in a sample. -/
def InputSample.trigger (x : InputSample) (k : Fin 8) : Bool := x.triggers.getLsbD k.val

/-- The commands and events of the part, in the order of spec/opcode_table.json. -/
inductive Instr where
  | echo (c : Cmd)
  | status (c : Cmd)
  | quota (c : Cmd)
  /-- The take of RESET_PART, with the bits that an open SPI transaction has read on SDI up to it (R158). -/
  | resetPart (c : Cmd) (sdi : List Bool)
  | evict (c : Cmd)
  | leave (c : Cmd)
  | alloc (c : Cmd)
  | retire (c : Cmd)
  | config (c : Cmd)
  | stage (c : Cmd)
  | armAt (c : Cmd)
  | armIn (c : Cmd)
  | armOn (c : Cmd)
  | disarm (c : Cmd)
  | suspend (c : Cmd)
  | resume (c : Cmd)
  | retime (c : Cmd)
  | nudge (c : Cmd)
  | look (c : Cmd)
  | give (c : Cmd)
  | takeNotices (c : Cmd)
  | noticeConfig (c : Cmd)
  | claim (c : Cmd)
  | release (c : Cmd)
  | setLines (c : Cmd)
  | groupMode (c : Cmd)
  | loadPhases (c : Cmd)
  | setGroup (c : Cmd)
  | setLimits (c : Cmd)
  | readLines (c : Cmd)
  | triggerConfig (c : Cmd)
  | readTrigger (c : Cmd)
  | readTime (c : Cmd)
  | setTime (c : Cmd)
  | synthSet (c : Cmd)
  | synthOn (c : Cmd)
  | synthOff (c : Cmd)
  | selectSource (c : Cmd)
  | prescale (c : Cmd)
  | freeze (c : Cmd)
  | linkConfig (c : Cmd)
  | linkStatus (c : Cmd)
  /-- The take of a command whose CODE names no command (R132). -/
  | unknown (code : Byte) (c : Cmd)
  | fire
  /-- This many cycles of the selected clock pass; the tick is the one that completes 2^k of them (R118). -/
  | tick (cycles : Nat)
  /-- The sampled level of a trigger changes at the last of these samples of its input, which are those since its last
  event; samples that do not change it are seen without an edge (R73). -/
  | triggerEdge (t : Fin 8) (samples : List Bool)
  /-- The loop gains lock at the reference frequency the board supplies, in hertz (R106). -/
  | lockGained (fRef : Nat)
  | lockLost
  | changeoverComplete
  /-- The sampled level of the FREEZE pin changes at the last of these samples of it, in the same way (R121). -/
  | freezePinChange (samples : List Bool)
  /-- The supply comes up with these strap values; whether NRESET is low at that time (R140, R163). -/
  | powerOnReset (adr : BitVec 4) (lspd : BitVec 2) (nresetLow : Bool)
  | nresetAssert
  /-- NRESET is released with these strap values (R144). -/
  | nresetRelease (adr : BitVec 4) (lspd : BitVec 2)
  /-- The last of these samples, which are those since the reset ended, has the filter pass a first level for the last
  of the nine inputs (R89, R144). -/
  | firstLevelPassed (samples : List InputSample)
  | selFall
  /-- SEL rises; the bits are those read on SDI, one at each rising edge of SCK since SEL fell (R146), and their first
  eight are the kind byte of a COMMAND (R148, R151). -/
  | commandTransaction (sdi : List Bool)
  /-- SEL rises after these bits, whose first eight are the kind byte of a FETCH (R148, R153). -/
  | fetchTransaction (sdi : List Bool)
  /-- SEL rises after these bits, whose first eight are the kind byte of a POLL (R148, R154). -/
  | pollTransaction (sdi : List Bool)
  /-- SEL rises after these bits, whose first eight name no kind (R148). -/
  | unknownKindTransaction (sdi : List Bool)
  /-- SEL rises after fewer than eight bits (R146). -/
  | transactionWithoutKind (sdi : List Bool)
  /-- A character completes: samples 1 to 169 of RXD since its start bit's sample 0 (R161). -/
  | characterComplete (rxd : List Bool)
  /-- More than G bit-times have passed since the last stop bit; the samples are those of RXD since the last event of
  the line (R167). -/
  | gap (rxd : List Bool)
  /-- Transmission begins; the samples are those of RXD since the last event of the line (R170, R171). -/
  | transmissionBegin (rxd : List Bool)
  /-- The last stop bit ends this many sample periods after the last event of the line (R172). -/
  | transmissionEnd (periods : Nat)
  | pendingSettingsInForce
  /-- A start bit's sample 0; the samples before it are those of RXD since the last event of the line (R161). -/
  | startBit (rxd : List Bool)
  /-- A start bit is found false: samples 1 to 9 of RXD since its sample 0 (R161). -/
  | falseStart (rxd : List Bool)
deriving DecidableEq, Repr

end Sys2Proof
end

