-- ==== Sys2Proof/Decode.lean ====
section
/-!
DEFINITION. Reading a command from a word of the opcode table. The table of this part gives no bit pattern to any of
its rows (spec/98_reader.md: no row with fixed bits and none with fields), so no word spells a command (log 20).
-/
namespace Sys2Proof

/-- The command a word spells by the table's bits: none, since no row of the table has bits (log 20). -/
def decodeTableWord (_nbits _w : Nat) : Option Instr := none

end Sys2Proof
end

