-- ==== Sys2Proof/Config.lean ====
section
/-!
DEFINITION. What the data book fixes once for every part: codes of the transaction kinds, the sample numbers of a
character, the strap divisors, the reset
quotas and link settings, and the two distance bounds of the due list. The spec leaves no value open after a command,
so there is no free value here.
-/
namespace Sys2Proof.Config

/-- Kind byte of a COMMAND transaction (R148). -/
def kindCommand : Byte := 0xA5
/-- Kind byte of a FETCH transaction (R148). -/
def kindFetch : Byte := 0x5A
/-- Kind byte of a POLL transaction (R148). -/
def kindPoll : Byte := 0x3C
/-- The data character of a marker frame (R173). -/
def markerChar : Byte := 0x4E
/-- The longest frame an SPI receive buffer keeps: LEN 47 plus the LEN byte (R151). -/
def frameBytes : Nat := 48
/-- The longest command body: LEN 47 less CODE, SEQ and CHECK (Table 10.7). -/
def bodyBytes : Nat := 44
/-- SPI quota after every reset (R23). -/
def spiQuota : Nat := 256
/-- LINK quota after every reset (R23). -/
def linkQuota : Nat := 64
/-- Character gap limit after a power-on or pin reset (R178). -/
def gapLimit : Byte := 40
/-- Response gap after a power-on or pin reset (R178). -/
def responseGap : Byte := 4
/-- The farthest a due may lie ahead of the time count (R27). -/
def farthestAhead : Int := 2147483647
/-- The farthest past target that an arming command takes, as a difference: −(2^31 − 2^16) (R27, R40). -/
def farthestPast : Int := -2147418112
/-- The most negative signed difference of two times (R24). -/
def mostPast : Int := -2147483648
/-- The ticks within which the engine fires a due entry: 2^16 (R27). -/
def promptTicks : Nat := 65536

/-- Samples in a bit-time (R160). -/
def bitSamples : Nat := 16
/-- Bits in a character: start, eight data bits, mark, stop (R161). -/
def charBits : Nat := 11
/-- Samples of a character after sample 0 of its start bit, up to sample 9 of its stop bit, which completes it (R161). -/
def characterSamples : Nat := 169
/-- Samples of a start bit after its sample 0, up to the third one of its vote (R161). -/
def falseStartSamples : Nat := 9
/-- Sample periods from the completion of a character, at sample 9 of its stop bit, to the end of that bit, 16 after its
sample 0 (R161). -/
def stopTail : Nat := 7

/-- The divisor the LSPD straps give, LSPD1 the higher bit (R160). -/
def strapDivisor (lspd : BitVec 2) : BitVec 16 :=
  if lspd = 0 then 130 else if lspd = 1 then 65 else if lspd = 2 then 33 else 11

/-- The link address the ADR straps give: a strap value of 0 is read as 15 (R163). -/
def strapAddress (adr : BitVec 4) : BitVec 4 := if adr = 0 then 15 else adr

end Sys2Proof.Config
end

