-- ==== Sys2Proof/Machine/State.lean ====
section
/-!
DEFINITION. The state of the part: everything the chapters name, block by block, as plain data; the queue of waiting
commands and events; the reasons a step can stop (none); and the state right after a power-on reset.
-/
namespace Sys2Proof.Machine

/-- One value for each port. -/
structure PerPort (α : Type) where
  spi : α
  link : α
deriving DecidableEq, Repr

/-! ### Chapter 1: the entry table -/

/-- Late policy (R8). -/
inductive LatePolicy where
  | fire
  | skip
  | refuse
deriving DecidableEq, Repr

/-- The three line actions (Table 1.2). -/
inductive LineOp where
  | set
  | clear
  | toggle
deriving DecidableEq, Repr

/-- An action with its target and value; every term satisfies the ranges of Table 1.2 (R4). -/
inductive Action where
  | none
  | line (op : LineOp) (l : Fin 16)
  | stepFwd (g : Fin 4)
  | stepRev (g : Fin 4)
  | loadPhase (g : Fin 4) (index : BitVec 3)
deriving DecidableEq, Repr

/-- The staged record; it is absent when both parts are (R5, R48). -/
structure Staged where
  period : Option Word
  action : Option Action
deriving DecidableEq, Repr

/-- No staged record (R5). -/
def Staged.absent : Staged := { period := none, action := none }

/-- The state of an allocated entry, with the due of ARMED and the remaining distance of HELD (R1, R9). -/
inductive EntryState where
  | idle
  | armed (due : Word)
  | parked
  | held (remaining : Word)
deriving DecidableEq, Repr

/-- The record of an allocated entry (Table 1.1). A FREE entry has no record (R1). -/
structure Entry where
  owner : Port
  state : EntryState
  tag : BitVec 16
  period : Word
  /-- The field repeat of Table 1.1. -/
  reps : BitVec 16
  left : BitVec 16
  late : LatePolicy
  notify : Bool
  action : Action
  staged : Staged
  delay : Word
  chain : Option EntryId
  trigger : Option (Fin 8)
  repark : Bool
deriving DecidableEq, Repr

/-! ### Chapter 3: the line unit -/

/-- Group mode (Table 3.2). -/
inductive GroupMode where
  | lines
  | sequence
deriving DecidableEq, Repr

/-- Step size: 1 (half steps) or 2 (full steps) (Table 3.2). -/
inductive StepSize where
  | one
  | two
deriving DecidableEq, Repr

/-- Travel limits (Table 3.2). -/
structure Limits where
  min : Word
  max : Word
deriving DecidableEq, Repr

/-- The state of one group (Table 3.2). -/
structure Group where
  mode : GroupMode
  table : Vector (BitVec 4) 8
  index : BitVec 3
  step : StepSize
  position : Word
  limits : Option Limits
deriving DecidableEq, Repr

/-- A group after every reset (R72). -/
def Group.initial : Group :=
  { mode := .lines, table := Vector.replicate 8 0, index := 0, step := .one, position := 0, limits := none }

/-- The line unit (Table 3.1): bit n of levels and drives is Ln. -/
structure LineUnit where
  levels : BitVec 16
  drives : BitVec 16
  lineClaims : Vector (Option Port) 16
  triggerClaims : Vector (Option Port) 8
  groups : Vector Group 4
deriving DecidableEq, Repr

/-- The line unit after every reset (R72). -/
def LineUnit.initial : LineUnit :=
  { levels := 0, drives := 0, lineClaims := Vector.replicate 16 none, triggerClaims := Vector.replicate 8 none,
    groups := Vector.replicate 4 Group.initial }

/-! ### Chapter 4: the trigger unit -/

/-- Edge selection (Table 4.1). -/
inductive EdgeSelection where
  | none
  | rising
  | falling
  | both
deriving DecidableEq, Repr

/-- Park mode (Table 4.1). -/
inductive ParkMode where
  | one
  | all
deriving DecidableEq, Repr

/-- One trigger; its claim is in the line unit (Table 4.1). -/
structure Trigger where
  edge : EdgeSelection
  mode : ParkMode
  capture : Option Word
  count : BitVec 8
  level : Bool
  /-- The last sample of the input (R73). -/
  sample : Bool
  park : List EntryId
deriving DecidableEq, Repr

/-- A trigger after every reset, at a given sampled level and last sample (R88, R89). -/
def Trigger.initial (level sample : Bool) : Trigger :=
  { edge := .none, mode := .one, capture := none, count := 0, level := level, sample := sample, park := [] }

/-! ### Chapter 5: notices -/

/-- The flag set of an ENTRY item (Table 5.2). -/
structure EntryFlags where
  late : Bool := false
  skipped : Bool := false
  stopped : Bool := false
  limit : Bool := false
  ended : Bool := false
  chainBusy : Bool := false
deriving DecidableEq, Repr

/-- The flag set of a TIMEBASE item (Table 5.2). -/
structure TimeFlags where
  lockGained : Bool := false
  lockLost : Bool := false
  fellBack : Bool := false
  changedOver : Bool := false
  holdBegun : Bool := false
  holdEnded : Bool := false
deriving DecidableEq, Repr

/-- What an ENTRY item reports beside its entry number (Table 5.1). -/
structure EntryReport where
  tag : BitVec 16
  count : BitVec 16
  flags : EntryFlags
  lastDue : Word
deriving DecidableEq, Repr

/-- A queue item (Table 5.1). -/
inductive NoticeItem where
  | entry (e : EntryId) (r : EntryReport)
  | timebase (count : BitVec 16) (flags : TimeFlags)
deriving DecidableEq, Repr

/-- The notice unit: the two queues, head first, the settings, and the marker request (R90, R96, R98). -/
structure NoticeUnit where
  queues : PerPort (List NoticeItem)
  signalling : PerPort Bool
  consume : PerPort Bool
  marker : Bool
deriving DecidableEq, Repr

/-- The notice unit after every reset (R104). -/
def NoticeUnit.initial : NoticeUnit :=
  { queues := ⟨[], []⟩, signalling := ⟨false, false⟩, consume := ⟨false, false⟩, marker := false }

/-! ### Chapter 6: the time base -/

/-- Synthesizer state (R107). -/
inductive SynthState where
  | off
  | acquiring
  | locked
  | unlocked
deriving DecidableEq, Repr

/-- Clock source (R105, R106). -/
inductive ClockSource where
  | ref
  | synth
deriving DecidableEq, Repr

/-- Lock-loss policy (R113). -/
inductive LossPolicy where
  | fallback
  | hold
deriving DecidableEq, Repr

/-- The kind of a changeover (R108). -/
inductive ChangeoverKind where
  | requested
  | fallback
deriving DecidableEq, Repr

/-- A changeover in flight (R108). -/
structure Changeover where
  target : ClockSource
  kind : ChangeoverKind
deriving DecidableEq, Repr

/-- The time base (Table 6.1). -/
structure TimeBase where
  synth : SynthState
  n : BitVec 4
  l : BitVec 4
  policy : LossPolicy
  source : ClockSource
  changeover : Option Changeover
  hold : Bool
  exponent : BitVec 4
  pendingExponent : Option (BitVec 4)
  prescaler : Nat
  count : Word
  freezeCommand : Bool
  freezePin : Bool
  /-- The last sample of the FREEZE pin (R121). -/
  freezeSample : Bool
deriving DecidableEq, Repr

/-- The time base after every reset, at a given sampled FREEZE pin level and last sample of the pin (R124). -/
def TimeBase.initial (freezePin freezeSample : Bool) : TimeBase :=
  { synth := .off, n := 4, l := 8, policy := .fallback, source := .ref, changeover := none, hold := false,
    exponent := 0, pendingExponent := none, prescaler := 0, count := 0, freezeCommand := false,
    freezePin := freezePin, freezeSample := freezeSample }

/-! ### Chapter 7: the table controller -/

/-- Result codes (Table 7.2). -/
inductive Result where
  | ok
  | notArmed
  | unknown
  | length
  | notPermitted
  | range
  | noEntry
  | notOwner
  | state
  | quota
  | full
  | inUse
  | notClaimed
  | claimed
  | settingLocked
  | notLocked
  | busy
  | late
  | lateSkipped
deriving DecidableEq, Repr

/-- A command frame in a slot, with the broadcast mark of a link frame (R125, R164). LEN and CHECK follow from it. -/
structure CommandFrame where
  code : Byte
  seq : Byte
  body : List Byte
  broadcast : Bool
deriving DecidableEq, Repr

/-- A response frame in a slot (R129). LEN and CHECK follow from it. -/
structure Response where
  code : Byte
  seq : Byte
  result : Result
  /-- FLAGS bit 0: an uncollected response was replaced. -/
  overwrote : Bool
  /-- FLAGS bit 1: a TAKE did not consume. -/
  notConsumed : Bool
  body : List Byte
deriving DecidableEq, Repr

/-- Reset cause (R140). -/
inductive ResetCause where
  | none
  | powerOn
  | pin
  | command
deriving DecidableEq, Repr

/-- The table controller (Table 7.1). -/
structure Controller where
  commands : PerPort (Option CommandFrame)
  responses : PerPort (Option Response)
  lastServed : Port
  resetCause : ResetCause
deriving DecidableEq, Repr

/-- The table controller after a reset of the given kind (Table 7.1). -/
def Controller.initial (cause : ResetCause) : Controller :=
  { commands := ⟨none, none⟩, responses := ⟨none, none⟩, lastServed := .link, resetCause := cause }

/-! ### Chapter 8: the SPI port -/

/-- Kinds of a transaction (R148). -/
inductive SpiKind where
  | command
  | fetch
  | poll
  | unknown
deriving DecidableEq, Repr

/-- Last transaction result (R150). -/
inductive SpiResult where
  | none
  | accepted
  | busy
  | check
  | length
  | kind
  | collected
  | kept
deriving DecidableEq, Repr

/-- An open transaction: its kind, unknown until the kind byte is complete; its two snapshots; and whether a response
was placed in the slot since SEL fell (R147, R153). -/
structure Transaction where
  kind : Option SpiKind
  status : Byte
  copy : Option Response
  placed : Bool
deriving DecidableEq, Repr

/-- The SPI port (Table 8.1), the level of SEL (R159), and two output fields of the model (log 15). -/
structure SpiPort where
  selLow : Bool
  transaction : Option Transaction
  /-- While SEL is still low in a transaction that a RESET_PART cut: its bits on SDO up to the end of its status byte or
  up to the reset, if that was later; every bit after them is 0 (R158). -/
  cut : Option (List Bool)
  buffer : List Byte
  bufferCount : Nat
  lastResult : SpiResult
  /-- The bits that the last ended transaction shifted out on SDO, one at each rising edge of SCK (R146). -/
  sdo : List Bool
deriving DecidableEq, Repr

/-- The SPI port after every reset, at a given level of SEL (R158, R159). -/
def SpiPort.initial (selLow : Bool) : SpiPort :=
  { selLow := selLow, transaction := none, cut := none, buffer := [], bufferCount := 0, lastResult := .none, sdo := [] }

/-! ### Chapter 9: the link port -/

/-- Link settings: divisor, character gap limit, response gap (R174). -/
structure LinkSettings where
  d : BitVec 16
  g : Byte
  q : Byte
deriving DecidableEq, Repr

/-- Last link error (R169). -/
inductive LinkError where
  | none
  | framing
  | split
  | gap
  | length
  | check
  | overrun
deriving DecidableEq, Repr

/-- The receiver; the buffer holds LEN and the bytes stored after it (R164, R165). -/
inductive Receiver where
  | hunting
  | assembling (broadcast : Bool) (buffer : List Byte)
deriving DecidableEq, Repr

/-- A character on the line: data byte and mark bit (R161). -/
structure LinkChar where
  data : Byte
  mark : Bool
deriving DecidableEq, Repr

/-- The two kinds of frame the port sends (R171). -/
inductive SentFrame where
  | response
  | marker
deriving DecidableEq, Repr

/-- The transmitter, with the characters of the frame being sent and the sample periods that have passed since it
began (R160, R172). -/
inductive Transmitter where
  | quiet
  | sending (what : SentFrame) (chars : List LinkChar) (periods : Nat)
deriving DecidableEq, Repr

/-- The link port (Table 9.1), and what R160, R161, R167 and R170 say of the samples of RXD. -/
structure LinkPort where
  address : BitVec 4
  settings : LinkSettings
  pendingSettings : Option LinkSettings
  lastError : LinkError
  receiver : Receiver
  insideChar : Bool
  /-- The cycles of REFCLK since the last sample, below D (R160). -/
  divider : Nat
  /-- The last sample of RXD since the last character, transmission or reset ended; false before there is one (R161). -/
  rxdHigh : Bool
  /-- The idle count in samples, 16 to a bit-time, up to Q bit-times (R170). -/
  idleSamples : Nat
  /-- While ASSEMBLING: the samples taken since the last character completed (R167). -/
  sinceChar : Nat
  transmitter : Transmitter
deriving DecidableEq, Repr

/-- The link port after every reset, at a given address and settings (Table 9.1). -/
def LinkPort.initial (address : BitVec 4) (settings : LinkSettings) : LinkPort :=
  { address := address, settings := settings, pendingSettings := none, lastError := .none, receiver := .hunting,
    insideChar := false, divider := 0, rxdHigh := false, idleSamples := 0, sinceChar := 0, transmitter := .quiet }

/-! ### The part -/

/-- How far a reset has got: NRESET held low, the first levels awaited after its release, or running (R144). -/
inductive Phase where
  | held
  | settling
  | running
deriving DecidableEq, Repr

/-- The state of the part, and the commands and events that wait, first in, first out. -/
structure State where
  phase : Phase
  entries : Vector (Option Entry) 256
  quotas : PerPort Nat
  dueList : List EntryId
  /-- For each entry, the ticks by which its due was past when it last joined the due list; 0 if it was now or ahead.
  It is the model's own record of the moment from which R27 counts (log 9, log 18). -/
  armedPast : Vector Nat 256
  lines : LineUnit
  triggers : Vector Trigger 8
  notices : NoticeUnit
  time : TimeBase
  ctl : Controller
  spi : SpiPort
  link : LinkPort
  pending : List Instr
deriving DecidableEq, Repr

/-- The spec names nothing that stops the part, so there is no fault: nothing raises one. Safe: no step is cut short. -/
inductive Fault where
deriving DecidableEq, Repr

/-- Why a command has no meaning. -/
inductive Refusal where
  /-- Raised by an arm of exec whose command is not modelled; no arm raises it. Safe: the run stops by name. -/
  | notModelled (mnemonic : String)
deriving DecidableEq, Repr

/-- The part right after a power-on reset (R142, R143), at the event at which it begins to take commands (R144), with
every strap and every input at 0 and SEL high (log 4). -/
def State.reset : State :=
  { phase := .running
    entries := Vector.replicate 256 none
    quotas := ⟨Config.spiQuota, Config.linkQuota⟩
    dueList := []
    armedPast := Vector.replicate 256 0
    lines := LineUnit.initial
    triggers := Vector.replicate 8 (Trigger.initial false false)
    notices := NoticeUnit.initial
    time := TimeBase.initial false false
    ctl := Controller.initial .powerOn
    spi := SpiPort.initial false
    link := LinkPort.initial (Config.strapAddress 0)
      { d := Config.strapDivisor 0, g := Config.gapLimit, q := Config.responseGap }
    pending := [] }

end Sys2Proof.Machine
end

