-- ==== Sys2Proof/Machine/Flags.lean ====
section
/-!
DEFINITION. The codes of the frames and records: result codes, enumerated codes, flag bytes, option bytes, and the
least-significant-byte-first order of the wider fields (R180, Tables 10.1, 10.2, 10.4, 10.11, 10.14).
-/
namespace Sys2Proof.Machine

/-! ### Bytes and fields -/

/-- A byte with bit n set or clear. -/
def bitAt (b : Bool) (n : Nat) : Byte := if b then BitVec.ofNat 8 (2 ^ n) else 0

/-- A 16-bit field, least significant byte first (R180). -/
def le16 (b0 b1 : Byte) : BitVec 16 := b1 ++ b0

/-- A 32-bit field, least significant byte first (R180). -/
def le32 (b0 b1 b2 b3 : Byte) : Word := b3 ++ b2 ++ b1 ++ b0

/-- The bytes of a 16-bit field, least significant first (R180). -/
def bytes16 (w : BitVec 16) : List Byte := [w.extractLsb' 0 8, w.extractLsb' 8 8]

/-- The bytes of a 32-bit field, least significant first (R180). -/
def bytes32 (w : Word) : List Byte :=
  [w.extractLsb' 0 8, w.extractLsb' 8 8, w.extractLsb' 16 8, w.extractLsb' 24 8]

/-- A count as a 16-bit field (Tables 10.12, 10.15). -/
def bytesCount (n : Nat) : List Byte := bytes16 (BitVec.ofNat 16 n)

/-- An entry number as a byte (R2). -/
def entryByte (e : EntryId) : Byte := BitVec.ofFin e

/-- The entry number a byte names: every byte names one (R2). -/
def entryOfByte (b : Byte) : EntryId := b.toFin

/-! ### Bytes and bits on the two ports -/

/-- The byte of eight bits, bit 7 first. -/
def byteOfBits (b7 b6 b5 b4 b3 b2 b1 b0 : Bool) : Byte :=
  bitAt b7 7 ||| bitAt b6 6 ||| bitAt b5 5 ||| bitAt b4 4 ||| bitAt b3 3 ||| bitAt b2 2 ||| bitAt b1 1 ||| bitAt b0 0

/-- The complete bytes of the bits on an SPI line, most significant bit first; a byte counts only when it has all eight
(R146). -/
def spiBytes : List Bool → List Byte
  | b7 :: b6 :: b5 :: b4 :: b3 :: b2 :: b1 :: b0 :: rest => byteOfBits b7 b6 b5 b4 b3 b2 b1 b0 :: spiBytes rest
  | _ => []

/-- The bits of a byte on an SPI line, most significant first (R146). -/
def spiBits (b : Byte) : List Bool :=
  [b.getLsbD 7, b.getLsbD 6, b.getLsbD 5, b.getLsbD 4, b.getLsbD 3, b.getLsbD 2, b.getLsbD 1, b.getLsbD 0]

/-- The eleven bits of a character in their order on the line: start 0, data least significant first, mark, stop 1
(R161). -/
def LinkChar.bits (c : LinkChar) : List Bool :=
  [false, c.data.getLsbD 0, c.data.getLsbD 1, c.data.getLsbD 2, c.data.getLsbD 3, c.data.getLsbD 4,
    c.data.getLsbD 5, c.data.getLsbD 6, c.data.getLsbD 7, c.mark, true]

/-- The value that at least two of three samples show (R161). -/
def voted (a b c : Bool) : Bool := (a && b) || (a && c) || (b && c)

/-- A bit of a character, from its samples 7, 8 and 9; the samples are counted from sample 0 of the start bit, in steps
of 16 to a bit (R161). -/
def readBit (samples : List Bool) (bit : Nat) : Bool :=
  voted (samples.getD (Config.bitSamples * bit + 7) true) (samples.getD (Config.bitSamples * bit + 8) true)
    (samples.getD (Config.bitSamples * bit + 9) true)

/-- The data byte of a character: bits 1 to 8, the least significant first (R161). -/
def readData (samples : List Bool) : Byte :=
  byteOfBits (readBit samples 8) (readBit samples 7) (readBit samples 6) (readBit samples 5) (readBit samples 4)
    (readBit samples 3) (readBit samples 2) (readBit samples 1)

/-- The mark bit of a character: bit 9 (R161). -/
def readMark (samples : List Bool) : Bool := readBit samples 9

/-- The stop bit of a character: bit 10 (R161). -/
def readStop (samples : List Bool) : Bool := readBit samples 10

/-! ### Result codes and enumerated codes -/

/-- The code of a result (Table 10.2). -/
def resultByte : Result → Byte
  | .ok => 0x00
  | .notArmed => 0x01
  | .unknown => 0x10
  | .length => 0x11
  | .notPermitted => 0x12
  | .range => 0x13
  | .noEntry => 0x14
  | .notOwner => 0x15
  | .state => 0x16
  | .quota => 0x17
  | .full => 0x18
  | .inUse => 0x19
  | .notClaimed => 0x1A
  | .claimed => 0x1B
  | .settingLocked => 0x1C
  | .notLocked => 0x1D
  | .busy => 0x1E
  | .late => 0x1F
  | .lateSkipped => 0x20

/-- Port and owner codes (Table 10.1). -/
def portByte : Port → Byte
  | .spi => 0
  | .link => 1

/-- Entry state codes; a FREE entry has no record to report (Table 10.1). -/
def stateByte : EntryState → Byte
  | .idle => 1
  | .armed _ => 2
  | .parked => 3
  | .held _ => 4

/-- Late policy codes (Table 10.1). -/
def lateByte : LatePolicy → Byte
  | .fire => 0
  | .skip => 1
  | .refuse => 2

/-- Action kind, target and value bytes (Tables 1.2, 10.1). -/
def actionBytes : Action → List Byte
  | .none => [0, 0, 0]
  | .line .set l => [1, BitVec.ofNat 8 l.val, 0]
  | .line .clear l => [2, BitVec.ofNat 8 l.val, 0]
  | .line .toggle l => [3, BitVec.ofNat 8 l.val, 0]
  | .stepFwd g => [4, BitVec.ofNat 8 g.val, 0]
  | .stepRev g => [5, BitVec.ofNat 8 g.val, 0]
  | .loadPhase g i => [6, BitVec.ofNat 8 g.val, i.setWidth 8]

/-- Synthesizer state codes (Table 10.1). -/
def synthByte : SynthState → Byte
  | .off => 0
  | .acquiring => 1
  | .locked => 2
  | .unlocked => 3

/-- Lock-loss policy codes (Table 10.1). -/
def policyByte : LossPolicy → Byte
  | .fallback => 0
  | .hold => 1

/-- Claim codes (Table 10.1). -/
def claimNat : Option Port → Nat
  | none => 0
  | some .spi => 1
  | some .link => 2

/-- Reset cause codes (Table 10.1). -/
def causeByte : ResetCause → Byte
  | .none => 0
  | .powerOn => 1
  | .pin => 2
  | .command => 3

/-- Last link error codes (Table 10.1). -/
def linkErrorByte : LinkError → Byte
  | .none => 0
  | .framing => 1
  | .split => 2
  | .gap => 3
  | .length => 4
  | .check => 5
  | .overrun => 6

/-- Last transaction result codes (Table 10.4). -/
def spiResultByte : SpiResult → Byte
  | .none => 0
  | .accepted => 1
  | .busy => 2
  | .check => 3
  | .length => 4
  | .kind => 5
  | .collected => 6
  | .kept => 7

/-! ### Notice flags -/

/-- The union of two flag sets (R92). -/
def EntryFlags.union (a b : EntryFlags) : EntryFlags :=
  { late := a.late || b.late, skipped := a.skipped || b.skipped, stopped := a.stopped || b.stopped,
    limit := a.limit || b.limit, ended := a.ended || b.ended, chainBusy := a.chainBusy || b.chainBusy }

/-- The union of two flag sets (R93). -/
def TimeFlags.union (a b : TimeFlags) : TimeFlags :=
  { lockGained := a.lockGained || b.lockGained, lockLost := a.lockLost || b.lockLost,
    fellBack := a.fellBack || b.fellBack, changedOver := a.changedOver || b.changedOver,
    holdBegun := a.holdBegun || b.holdBegun, holdEnded := a.holdEnded || b.holdEnded }

/-- The flags byte of an ENTRY record (Table 10.14). -/
def entryFlagsByte (f : EntryFlags) : Byte :=
  bitAt f.late 0 ||| bitAt f.skipped 1 ||| bitAt f.stopped 2 ||| bitAt f.limit 3 ||| bitAt f.ended 4 |||
    bitAt f.chainBusy 5

/-- The flags byte of a TIMEBASE record (Table 10.14). -/
def timeFlagsByte (f : TimeFlags) : Byte :=
  bitAt f.lockGained 0 ||| bitAt f.lockLost 1 ||| bitAt f.fellBack 2 ||| bitAt f.changedOver 3 |||
    bitAt f.holdBegun 4 ||| bitAt f.holdEnded 5

/-- The notice record of an item; absent fields are zero bytes (R91, Table 10.14). -/
def noticeRecord : NoticeItem → List Byte
  | .entry e r =>
    [entryByte e, 0] ++ bytes16 r.tag ++ bytes16 r.count ++ [entryFlagsByte r.flags] ++ bytes32 r.lastDue
  | .timebase n f => [0, 1] ++ bytes16 0 ++ bytes16 n ++ [timeFlagsByte f] ++ bytes32 0

/-- A count that stays at 65535 once it gets there (R91). -/
def saturate16 (n : BitVec 16) : BitVec 16 := if n = 0xFFFF then n else n + 1

/-- A count that stays at 255 once it gets there (R75). -/
def saturate8 (n : BitVec 8) : BitVec 8 := if n = 0xFF then n else n + 1

/-! ### Frames and the CHECK byte -/

/-- One of the eight shifts of the CRC-8 with polynomial 07H (R182). -/
def crcShift (r : Byte) : Byte := if r.msb then (r <<< 1) ^^^ 0x07 else r <<< 1

/-- The remainder after one more byte (R182). -/
def crcByte (r b : Byte) : Byte :=
  crcShift (crcShift (crcShift (crcShift (crcShift (crcShift (crcShift (crcShift (r ^^^ b))))))))

/-- The CRC-8 of a string of bytes, from the remainder FFH (R182). -/
def crc8 (bytes : List Byte) : Byte := bytes.foldl crcByte 0xFF

/-- A frame from LEN to CHECK around the bytes that stand between them (R181, R182). -/
def frameBytes (inner : List Byte) : List Byte :=
  let covered := BitVec.ofNat 8 (inner.length + 1) :: inner
  covered ++ [crc8 covered]

/-- The bytes of a command frame (Table 10.7). -/
def commandBytes (code seq : Byte) (body : List Byte) : List Byte := frameBytes (code :: seq :: body)

/-- The FLAGS byte of a response (R129, Table 10.8). -/
def responseFlags (r : Response) : Byte := bitAt r.overwrote 0 ||| bitAt r.notConsumed 1

/-- The bytes of a response frame (Table 10.8). -/
def responseBytes (r : Response) : List Byte :=
  frameBytes (r.code :: r.seq :: resultByte r.result :: responseFlags r :: r.body)

/-- LEN of a received frame lies within 3 to 47 (R125, R181). -/
def lenOk (len : Byte) : Bool := decide (3 ≤ len.toNat) && decide (len.toNat ≤ 47)

/-- CHECK of a received frame is the CRC-8 of the bytes before it (R151, R168, R182). -/
def checkOk (frame : List Byte) : Bool := frame.getLast? == some (crc8 frame.dropLast)

/-- The command of a received frame from LEN to CHECK (Table 10.7). -/
def frameCommand (frame : List Byte) (broadcast : Bool) : Option CommandFrame :=
  match frame with
  | _ :: code :: seq :: rest => some { code := code, seq := seq, body := rest.dropLast, broadcast := broadcast }
  | _ => none

end Sys2Proof.Machine
end

