-- ==== Sys2Proof/Machine/Operands.lean ====
section
/-!
DEFINITION. Reading the arguments of a command body (Table 10.10). Each reader answers none where stage 4 of the check
order refuses the body with RANGE: an argument out of its range, an undefined code, a nonzero reserved bit or byte
(R131, R183). Each is applied to a body whose length stage 2 has accepted.
-/
namespace Sys2Proof.Machine

/-- A period or staged period: 0 to 2^31 − 1 (R14, R48). -/
def readPeriod (w : Word) : Option Word := if w.msb then none else some w

/-- A delay or distance: 1 to 2^31 − 1 (R14, R41). -/
def readDistance (w : Word) : Option Word := if w.msb || w == 0 then none else some w

/-- An on/off setting (Table 10.1). -/
def readSwitch (b : Byte) : Option Bool :=
  if b = 0 then some false else if b = 1 then some true else none

/-- A port (Table 10.1). -/
def readPort (b : Byte) : Option Port :=
  if b = 0 then some .spi else if b = 1 then some .link else none

/-- A line number 0 to 15 (R4). -/
def readLine (b : Byte) : Option (Fin 16) := if h : b.toNat < 16 then some ⟨b.toNat, h⟩ else none

/-- A group number 0 to 3 (R4, R61). -/
def readGroup (b : Byte) : Option (Fin 4) := if h : b.toNat < 4 then some ⟨b.toNat, h⟩ else none

/-- A trigger number 0 to 7 (R14, R86). -/
def readTriggerNumber (b : Byte) : Option (Fin 8) := if h : b.toNat < 8 then some ⟨b.toNat, h⟩ else none

/-- A phase index 0 to 7 (R4, R68). -/
def readIndex (b : Byte) : Option (BitVec 3) := if b.toNat < 8 then some (b.setWidth 3) else none

/-- A four-bit value in a byte: a pattern, N, L or an exponent (R67, R114, R118). -/
def readNibble (b : Byte) : Option (BitVec 4) := if b.toNat < 16 then some (b.setWidth 4) else none

/-- A step size, 1 or 2 (R68). -/
def readStep (b : Byte) : Option StepSize := if b = 1 then some .one else if b = 2 then some .two else none

/-- A late policy from its two bits; code 3 is reserved (R183). -/
def readLate (b : BitVec 2) : Option LatePolicy :=
  if b = 0 then some .fire else if b = 1 then some .skip else if b = 2 then some .refuse else none

/-- An action from its kind, target and value bytes (R4, Table 1.2). DEDUCED (log 11): the value byte of a step
action, which has no value, must be 0 as that of a line action. -/
def readAction (kind target value : Byte) : Option Action :=
  if kind = 0 then (if target = 0 ∧ value = 0 then some .none else none)
  else if kind = 1 then (if value = 0 then (readLine target).map (.line .set) else none)
  else if kind = 2 then (if value = 0 then (readLine target).map (.line .clear) else none)
  else if kind = 3 then (if value = 0 then (readLine target).map (.line .toggle) else none)
  else if kind = 4 then (if value = 0 then (readGroup target).map .stepFwd else none)
  else if kind = 5 then (if value = 0 then (readGroup target).map .stepRev else none)
  else if kind = 6 then
    match readGroup target, readIndex value with
    | some g, some i => some (.loadPhase g i)
    | _, _ => none
  else none

/-- An optional part: present and read, or absent with its value bytes 0 (R183). -/
def readOptional {α : Type} (present : Bool) (value : Option α) (zero : Bool) : Option (Option α) :=
  if present then value.map some else if zero then some none else none

/-! ### The bodies -/

/-- QUOTA: port, quota 0 to 256 (R13). -/
def readQuotaBody : List Byte → Option (Port × Nat)
  | [p, q0, q1] =>
    match readPort p with
    | some port => if (le16 q0 q1).toNat ≤ 256 then some (port, (le16 q0 q1).toNat) else none
    | none => none
  | _ => none

/-- A body of one entry number. -/
def readEntryBody : List Byte → Option EntryId
  | [e] => some (entryOfByte e)
  | _ => none

/-- An entry number and a 32-bit value: ARM_AT, RETIME. -/
def readEntryWordBody : List Byte → Option (EntryId × Word)
  | [e, b0, b1, b2, b3] => some (entryOfByte e, le32 b0 b1 b2 b3)
  | _ => none

/-- ARM_IN: an entry number and a distance 1 to 2^31 − 1 (R41). -/
def readArmInBody (body : List Byte) : Option (EntryId × Word) :=
  match readEntryWordBody body with
  | some (e, w) => (readDistance w).map fun d => (e, d)
  | none => none

/-- NUDGE: an entry number and a signed offset; −2^31 is refused (R47). -/
def readNudgeBody (body : List Byte) : Option (EntryId × Word) :=
  match readEntryWordBody body with
  | some (e, w) => if w = 0x80000000 then none else some (e, w)
  | none => none

/-- The configuration that CONFIG carries (R14). -/
structure EntryConfig where
  tag : BitVec 16
  period : Word
  reps : BitVec 16
  delay : Word
  action : Action
  late : LatePolicy
  notify : Bool
  repark : Bool
  chain : Option EntryId
  trigger : Option (Fin 8)
deriving DecidableEq, Repr

/-- CONFIG (R14, Tables 10.10, 10.11). -/
def readConfigBody : List Byte → Option (EntryId × EntryConfig)
  | [e, t0, t1, p0, p1, p2, p3, r0, r1, d0, d1, d2, d3, kind, target, value, options, chain, trigger] =>
    match readPeriod (le32 p0 p1 p2 p3), readDistance (le32 d0 d1 d2 d3), readAction kind target value,
        readLate (options.extractLsb' 0 2),
        readOptional (options.getLsbD 4) (some (entryOfByte chain)) (chain == 0),
        readOptional (options.getLsbD 5) (readTriggerNumber trigger) (trigger == 0) with
    | some period, some delay, some action, some late, some chain, some trigger =>
      if options.extractLsb' 6 2 = 0 ∧ ¬ (options.getLsbD 3 = true ∧ trigger = none) then
        some (entryOfByte e,
          { tag := le16 t0 t1, period := period, reps := le16 r0 r1, delay := delay, action := action, late := late,
            notify := options.getLsbD 2, repark := options.getLsbD 3, chain := chain, trigger := trigger })
      else none
    | _, _, _, _, _, _ => none
  | _ => none

/-- STAGE (R48). -/
def readStageBody : List Byte → Option (EntryId × Staged)
  | [e, presence, p0, p1, p2, p3, kind, target, value] =>
    match readOptional (presence.getLsbD 0) (readPeriod (le32 p0 p1 p2 p3)) (le32 p0 p1 p2 p3 == 0),
        readOptional (presence.getLsbD 1) (readAction kind target value) (kind == 0 && target == 0 && value == 0) with
    | some period, some action =>
      if presence.extractLsb' 2 6 = 0 then some (entryOfByte e, { period := period, action := action }) else none
    | _, _ => none
  | _ => none

/-- TAKE: k, 1 to 3 (R94). -/
def readTakeBody : List Byte → Option Nat
  | [k] => if 1 ≤ k.toNat ∧ k.toNat ≤ 3 then some k.toNat else none
  | _ => none

/-- NOTICE_CONFIG: signalling, consume-in-freeze (R96). -/
def readNoticeConfigBody : List Byte → Option (Bool × Bool)
  | [signalling, consume] =>
    match readSwitch signalling, readSwitch consume with
    | some a, some b => some (a, b)
    | _, _ => none
  | _ => none

/-- CLAIM and RELEASE: line mask, trigger mask (R57, R58). -/
def readMasksBody : List Byte → Option (BitVec 16 × BitVec 8)
  | [l0, l1, t] => some (le16 l0 l1, t)
  | _ => none

/-- What SET_LINES carries (R66). -/
structure LineWrite where
  mask : BitVec 16
  levels : BitVec 16
  drives : BitVec 16
deriving DecidableEq, Repr

/-- SET_LINES: no bit of levels or drives outside the mask (R66). -/
def readSetLinesBody : List Byte → Option LineWrite
  | [m0, m1, v0, v1, d0, d1] =>
    if (le16 v0 v1 ||| le16 d0 d1) &&& ~~~ le16 m0 m1 = 0 then
      some { mask := le16 m0 m1, levels := le16 v0 v1, drives := le16 d0 d1 }
    else none
  | _ => none

/-- GROUP_MODE: group, mode (R61). -/
def readGroupModeBody : List Byte → Option (Fin 4 × GroupMode)
  | [g, m] =>
    match readGroup g, readSwitch m with
    | some g, some b => some (g, if b then .sequence else .lines)
    | _, _ => none
  | _ => none

/-- LOAD_PHASES: group, eight patterns (R67). -/
def readLoadPhasesBody : List Byte → Option (Fin 4 × Vector (BitVec 4) 8)
  | [g, a0, a1, a2, a3, a4, a5, a6, a7] =>
    match readGroup g, readNibble a0, readNibble a1, readNibble a2, readNibble a3, readNibble a4, readNibble a5,
        readNibble a6, readNibble a7 with
    | some g, some b0, some b1, some b2, some b3, some b4, some b5, some b6, some b7 =>
      some (g, #v[b0, b1, b2, b3, b4, b5, b6, b7])
    | _, _, _, _, _, _, _, _, _ => none
  | _ => none

/-- What SET_GROUP carries: each part optional (R68). -/
structure GroupWrite where
  index : Option (BitVec 3)
  position : Option Word
  step : Option StepSize
deriving DecidableEq, Repr

/-- SET_GROUP (R68). -/
def readSetGroupBody : List Byte → Option (Fin 4 × GroupWrite)
  | [g, presence, index, p0, p1, p2, p3, step] =>
    match readGroup g, readOptional (presence.getLsbD 0) (readIndex index) (index == 0),
        readOptional (presence.getLsbD 1) (some (le32 p0 p1 p2 p3)) (le32 p0 p1 p2 p3 == 0),
        readOptional (presence.getLsbD 2) (readStep step) (step == 0) with
    | some g, some index, some position, some step =>
      if presence.extractLsb' 3 5 = 0 then some (g, { index := index, position := position, step := step }) else none
    | _, _, _, _ => none
  | _ => none

/-- SET_LIMITS: min not above max, both signed (R69). -/
def readSetLimitsBody : List Byte → Option (Fin 4 × Option Limits)
  | [g, presence, a0, a1, a2, a3, b0, b1, b2, b3] =>
    match readGroup g,
        readOptional (presence.getLsbD 0)
          (if (le32 a0 a1 a2 a3).toInt ≤ (le32 b0 b1 b2 b3).toInt then
            some { min := le32 a0 a1 a2 a3, max := le32 b0 b1 b2 b3 : Limits } else none)
          (le32 a0 a1 a2 a3 == 0 && le32 b0 b1 b2 b3 == 0) with
    | some g, some limits => if presence.extractLsb' 1 7 = 0 then some (g, limits) else none
    | _, _ => none
  | _ => none

/-- READ_LINES: no group, or one group 0 to 3 (R185). -/
def readReadLinesBody : List Byte → Option (Option (Fin 4))
  | [] => some none
  | [g] => (readGroup g).map some
  | _ => none

/-- An edge selection (Table 10.1). -/
def readEdge (b : Byte) : Option EdgeSelection :=
  if b = 0 then some .none else if b = 1 then some .rising else if b = 2 then some .falling
  else if b = 3 then some .both else none

/-- TRIGGER_CONFIG: trigger, edge selection, park mode (R86). -/
def readTriggerConfigBody : List Byte → Option (Fin 8 × EdgeSelection × ParkMode)
  | [t, edge, mode] =>
    match readTriggerNumber t, readEdge edge, readSwitch mode with
    | some t, some edge, some m => some (t, edge, if m then .all else .one)
    | _, _, _ => none
  | _ => none

/-- READ_TRIGGER: trigger (R87). -/
def readReadTriggerBody : List Byte → Option (Fin 8)
  | [t] => readTriggerNumber t
  | _ => none

/-- SET_TIME: any 32-bit time (R119). -/
def readTimeBody : List Byte → Option Word
  | [b0, b1, b2, b3] => some (le32 b0 b1 b2 b3)
  | _ => none

/-- What SYNTH_SET carries: N and L as a pair, and the policy, each optional (R114). -/
structure SynthWrite where
  nl : Option (BitVec 4 × BitVec 4)
  policy : Option LossPolicy
deriving DecidableEq, Repr

/-- SYNTH_SET (R114). -/
def readSynthSetBody : List Byte → Option SynthWrite
  | [presence, n, l, policy] =>
    match readOptional (presence.getLsbD 0)
          (match readNibble n, readNibble l with
            | some n, some l => some (n, l)
            | _, _ => none)
          (n == 0 && l == 0),
        readOptional (presence.getLsbD 1)
          ((readSwitch policy).map fun b => if b then LossPolicy.hold else LossPolicy.fallback) (policy == 0) with
    | some nl, some policy => if presence.extractLsb' 2 6 = 0 then some { nl := nl, policy := policy } else none
    | _, _ => none
  | _ => none

/-- SELECT: REF or SYNTH (R116). -/
def readSelectBody : List Byte → Option ClockSource
  | [b] => (readSwitch b).map fun s => if s then .synth else .ref
  | _ => none

/-- PRESCALE: an exponent 0 to 15 (R118). -/
def readPrescaleBody : List Byte → Option (BitVec 4)
  | [b] => readNibble b
  | _ => none

/-- FREEZE: off or on (R122). -/
def readFreezeBody : List Byte → Option Bool
  | [b] => readSwitch b
  | _ => none

/-- LINK_CONFIG: D 1 to 4096, G 16 to 255, Q 2 to 64 (R174). -/
def readLinkConfigBody : List Byte → Option LinkSettings
  | [d0, d1, g, q] =>
    if 1 ≤ (le16 d0 d1).toNat ∧ (le16 d0 d1).toNat ≤ 4096 ∧ 16 ≤ g.toNat ∧ 2 ≤ q.toNat ∧ q.toNat ≤ 64 then
      some { d := le16 d0 d1, g := g, q := q }
    else none
  | _ => none

end Sys2Proof.Machine
end

