-- ==== Sys2Proof/Machine/Ops.lean ====
section
/-!
DEFINITION. The operations over the state that the commands and events share: the entry table and its lists, time
differences, the line unit, the notice queues, the slots, and the one way a command is taken and answered.
-/
namespace Sys2Proof.Machine

/-! ### One value for each port -/

/-- The value of a port. -/
def PerPort.get {α : Type} (v : PerPort α) : Port → α
  | .spi => v.spi
  | .link => v.link

/-- The pair with the value of one port replaced. -/
def PerPort.set {α : Type} (v : PerPort α) (p : Port) (a : α) : PerPort α :=
  match p with
  | .spi => { v with spi := a }
  | .link => { v with link := a }

/-! ### Conditions of the part -/

/-- The part takes commands and events: no reset is held and the first levels are known (R144). -/
def State.running (s : State) : Bool := s.phase == .running

/-- The FREEZE pin is asserted or the freeze command setting is on (R121). -/
def TimeBase.frozen (t : TimeBase) : Bool := t.freezePin || t.freezeCommand

/-- The time count advances at each tick: no freeze, no changeover in flight, no hold (R117). -/
def TimeBase.advancing (t : TimeBase) : Bool := !t.frozen && t.changeover.isNone && !t.hold

/-- The difference of a time from another, signed (R24, 00 section 3.2). -/
def difference (t now : Word) : Int := (t - now).toInt

/-- How many ticks a time lies behind the time count; 0 if it is now or ahead. -/
def ticksPast (t now : Word) : Nat := (-(difference t now)).toNat

/-! ### The entry table -/

/-- The record of an entry; none when it is FREE (R1). -/
def State.entry (s : State) (e : EntryId) : Option Entry := s.entries.get e

/-- The table with one record replaced. -/
def State.setEntry (s : State) (e : EntryId) (a : Option Entry) : State :=
  { s with entries := s.entries.set e.val a e.isLt }

/-- The record belongs to the port. -/
def ownedBy (p : Port) : Option Entry → Bool
  | some a => a.owner == p
  | none => false

/-- The owned count of a port (R11). -/
def State.ownedCount (s : State) (p : Port) : Nat := s.entries.toList.countP (ownedBy p)

/-- The free count: 256 minus both owned counts (R11, R139). -/
def State.freeCount (s : State) : Nat := 256 - (s.ownedCount .spi + s.ownedCount .link)

/-- The lowest-numbered FREE entry (R12). -/
def State.lowestFree (s : State) : Option EntryId := (List.finRange 256).find? fun e => (s.entry e).isNone

/-- An entry record after ALLOC (R10, Table 1.4). -/
def Entry.initial (p : Port) : Entry :=
  { owner := p, state := .idle, tag := 0, period := 0, reps := 1, left := 0, late := .fire, notify := false,
    action := .none, staged := Staged.absent, delay := 1, chain := none, trigger := none, repark := false }

/-- The record without a chain to the entry (R17). -/
def Entry.unchain (e : EntryId) (a : Entry) : Entry := if a.chain = some e then { a with chain := none } else a

/-- The due of an ARMED entry. -/
def State.dueOf (s : State) (e : EntryId) : Option Word :=
  match s.entry e with
  | some { state := .armed due, .. } => some due
  | _ => none

/-- The signed difference of an ARMED entry's due from the time count, the key of the due list (R25); 0 otherwise. -/
def State.keyOf (s : State) (e : EntryId) : Int :=
  match s.dueOf e with
  | some due => difference due s.time.count
  | none => 0

/-- Insertion behind every entry whose key is equal or smaller (R26). -/
def insertBy (key : EntryId → Int) (k : Int) (e : EntryId) : List EntryId → List EntryId
  | [] => [e]
  | x :: xs => if key x ≤ k then x :: insertBy key k e xs else e :: x :: xs

/-- The part with an entry in no due list and no park list; the others keep their order (R26, R78). -/
def State.unlist (s : State) (e : EntryId) : State :=
  { s with dueList := s.dueList.filter (· != e)
           triggers := s.triggers.map fun t => { t with park := t.park.filter (· != e) } }

/-- The part with an entry at the tail of a trigger's park list (R77). -/
def State.appendPark (s : State) (t : Fin 8) (e : EntryId) : State :=
  { s with
    triggers :=
      s.triggers.set t.val { s.triggers.get t with park := (s.triggers.get t).park ++ [e] } t.isLt }

/-- The part with an entry in no list given this record and inserted in the list its state asks for: the due list when
ARMED, its trigger's park list when PARKED, none when IDLE or HELD (R9, R26, R77). How far its due is past when it
joins the due list is recorded (R27; log 9). -/
def State.place (s : State) (e : EntryId) (a : Entry) : State :=
  match a.state with
  | .armed due =>
    { s.setEntry e (some a) with
      dueList := insertBy s.keyOf (difference due s.time.count) e s.dueList
      armedPast := s.armedPast.set e.val (ticksPast due s.time.count) e.isLt }
  | .parked =>
    match a.trigger with
    | some t => (s.setEntry e (some a)).appendPark t e
    | none => s.setEntry e (some a)
  | .idle => s.setEntry e (some a)
  | .held _ => s.setEntry e (some a)

/-- The change of an entry from one state to another: it leaves the list it is in and joins the list of its new state
within one event (R9). -/
def State.move (s : State) (e : EntryId) (a : Entry) : State := (s.unlist e).place e a

/-- The distance, in ticks, from a past time to its first grid point now or ahead: the smallest k of at least 1 times
the period (R34). `past` is how far the time lies behind the time count. -/
def gridDistance (past period : Nat) : Nat := (past + period - 1) / period * period

/-- The first grid point now or ahead of a past time, for a period that is not 0 (R34). -/
def firstGridPoint (t now period : Word) : Word :=
  t + BitVec.ofNat 32 (gridDistance (ticksPast t now) period.toNat)

/-- The outcome of late handling at a command arm (R38): armed at a due, with the skipped indication, or refused. -/
inductive LateOutcome where
  | armed (due : Word) (skipped : Bool)
  | refused (r : Result)
deriving DecidableEq, Repr

/-- Late handling of a target by a command arm (R38, Table 2.2). -/
def lateCommandArm (late : LatePolicy) (period target now : Word) : LateOutcome :=
  if 0 ≤ difference target now then .armed target false
  else
    match late with
    | .fire => .armed target false
    | .skip => if period = 0 then .refused .lateSkipped else .armed (firstGridPoint target now period) true
    | .refuse => .refused .late

/-! ### The line unit -/

/-- The group a line belongs to (03 section 3.2). -/
def groupOf (l : Fin 16) : Fin 4 := ⟨l.val / 4, by omega⟩

/-- The lowest-numbered line of a group (03 section 3.2). -/
def firstLine (g : Fin 4) : Nat := 4 * g.val

/-- The levels with the four lines of a group at a pattern, bit 0 the lowest-numbered line (R60). -/
def withPattern (levels : BitVec 16) (g : Fin 4) (pattern : BitVec 4) : BitVec 16 :=
  (levels &&& ~~~((0xF : BitVec 16) <<< firstLine g)) ||| (pattern.setWidth 16 <<< firstLine g)

/-- The pattern the four lines of a group show (R60). -/
def groupLevels (levels : BitVec 16) (g : Fin 4) : BitVec 4 := levels.extractLsb' (firstLine g) 4

/-- The phase table pattern at the group's phase index (R60). -/
def Group.pattern (g : Group) : BitVec 4 := g.table[g.index.toNat]'g.index.isLt

/-- A port claims all four lines of a group (R56). -/
def LineUnit.claimsGroup (u : LineUnit) (p : Port) (g : Fin 4) : Bool :=
  decide (∀ l : Fin 16, groupOf l = g → u.lineClaims.get l = some p)

/-- The unit with a group replaced and, if the group is in SEQUENCE mode, its four levels at its pattern (R60). -/
def LineUnit.putGroup (u : LineUnit) (g : Fin 4) (group : Group) : LineUnit :=
  { u with groups := u.groups.set g.val group g.isLt
           levels := if group.mode = .sequence then withPattern u.levels g group.pattern else u.levels }

/-- The unit with a group replaced and its levels untouched. -/
def LineUnit.setGroup (u : LineUnit) (g : Fin 4) (group : Group) : LineUnit :=
  { u with groups := u.groups.set g.val group g.isLt }

/-- A position lies within the limits, all read as signed numbers; absent limits hold any (R60). -/
def withinLimits (limits : Option Limits) (position : Word) : Bool :=
  match limits with
  | none => true
  | some m => decide (m.min.toInt ≤ position.toInt) && decide (position.toInt ≤ m.max.toInt)

/-- The step size as a change of the phase index (R64). -/
def StepSize.index : StepSize → BitVec 3
  | .one => 1
  | .two => 2

/-- The group that an action needs. -/
def Action.group : Action → Option (Fin 4)
  | .none => Option.none
  | .line _ _ => Option.none
  | .stepFwd g => some g
  | .stepRev g => some g
  | .loadPhase g _ => some g

/-- The line that a line action names. -/
def Action.lineTarget : Action → Option (Fin 16)
  | .line _ l => some l
  | _ => Option.none

/-- The line or group of an action is claimed by a port (R4, Table 1.2). -/
def LineUnit.claimsAction (u : LineUnit) (p : Port) (a : Action) : Bool :=
  match a with
  | .none => true
  | .line _ l => u.lineClaims.get l == some p
  | .stepFwd g => u.claimsGroup p g
  | .stepRev g => u.claimsGroup p g
  | .loadPhase g _ => u.claimsGroup p g

/-- The group of an action is in the mode its kind needs (R4, Table 1.2). -/
def LineUnit.modeAdmits (u : LineUnit) (a : Action) : Bool :=
  match a with
  | .none => true
  | .line _ l => (u.groups.get (groupOf l)).mode == .lines
  | .stepFwd g => (u.groups.get g).mode == .sequence
  | .stepRev g => (u.groups.get g).mode == .sequence
  | .loadPhase g _ => (u.groups.get g).mode == .sequence

/-- A trigger, if one is named, is claimed by a port (R4). -/
def LineUnit.claimsTrigger (u : LineUnit) (p : Port) (t : Option (Fin 8)) : Bool :=
  match t with
  | none => true
  | some t => u.triggerClaims.get t == some p

/-- The part with the lines and triggers of the masks released (R59). -/
def State.releaseClaims (s : State) (lines : BitVec 16) (triggers : BitVec 8) : State :=
  { s with
    lines := { s.lines with
      lineClaims := Vector.ofFn fun l : Fin 16 => if lines.getLsbD l.val then none else s.lines.lineClaims.get l
      triggerClaims := Vector.ofFn fun t : Fin 8 =>
        if triggers.getLsbD t.val then none else s.lines.triggerClaims.get t }
    triggers := Vector.ofFn fun t : Fin 8 =>
      if triggers.getLsbD t.val then
        { Trigger.initial (s.triggers.get t).level (s.triggers.get t).sample with park := (s.triggers.get t).park }
      else s.triggers.get t }

/-! ### Notices -/

/-- The item reports the entry. -/
def NoticeItem.reports (e : EntryId) : NoticeItem → Bool
  | .entry e' _ => e' == e
  | .timebase _ _ => false

/-- The item is the TIMEBASE item. -/
def NoticeItem.isTimebase : NoticeItem → Bool
  | .entry _ _ => false
  | .timebase _ _ => true

/-- What an entry's item in a queue reports, if one stands (R15, R16). -/
def entryReport (e : EntryId) : List NoticeItem → Option EntryReport
  | [] => none
  | .entry e' r :: rest => if e' = e then some r else entryReport e rest
  | .timebase _ _ :: rest => entryReport e rest

/-- The unit with one queue replaced. The marker request goes when the link queue becomes empty (R99), and is raised
when that queue becomes non-empty from empty while link signalling is on (R98 case 1). -/
def NoticeUnit.setQueue (n : NoticeUnit) (p : Port) (q : List NoticeItem) : NoticeUnit :=
  match p with
  | .spi => { n with queues := n.queues.set .spi q }
  | .link =>
    { n with queues := n.queues.set .link q
             marker := if q.isEmpty then false else n.marker || (n.queues.link.isEmpty && n.signalling.link) }

/-- An item updated by one more firing (R92). -/
def EntryReport.again (r : EntryReport) (tag : BitVec 16) (flags : EntryFlags) (due : Word) : EntryReport :=
  { tag := tag, count := saturate16 r.count, flags := r.flags.union flags, lastDue := due }

/-- A queue after an ENTRY posting: the entry's item updated in place, or a new item at the tail (R92). -/
def postEntry (q : List NoticeItem) (e : EntryId) (tag : BitVec 16) (flags : EntryFlags) (due : Word) :
    List NoticeItem :=
  if q.any (NoticeItem.reports e) then
    q.map fun
      | .entry e' r => if e' = e then .entry e' (r.again tag flags due) else .entry e' r
      | .timebase n f => .timebase n f
  else q ++ [.entry e { tag := tag, count := 1, flags := flags, lastDue := due }]

/-- A queue after a TIMEBASE posting (R93). -/
def postTimebase (q : List NoticeItem) (flags : TimeFlags) : List NoticeItem :=
  if q.any NoticeItem.isTimebase then
    q.map fun
      | .entry e r => .entry e r
      | .timebase n f => .timebase (saturate16 n) (f.union flags)
  else q ++ [.timebase 1 flags]

/-- The part after an ENTRY posting to the owner's queue (R92). -/
def State.post (s : State) (p : Port) (e : EntryId) (tag : BitVec 16) (flags : EntryFlags) (due : Word) : State :=
  { s with notices := s.notices.setQueue p (postEntry (s.notices.queues.get p) e tag flags due) }

/-- The part after a TIMEBASE posting to the SPI queue (R93). -/
def State.postTime (s : State) (flags : TimeFlags) : State :=
  { s with notices := s.notices.setQueue .spi (postTimebase s.notices.queues.spi flags) }

/-- The queue without an entry's item (R16, R19). -/
def withoutEntry (e : EntryId) (q : List NoticeItem) : List NoticeItem := q.filter fun i => !i.reports e

/-- NOTICE0 is asserted (R97). -/
def NoticeUnit.notice0 (n : NoticeUnit) : Bool := !n.queues.spi.isEmpty && n.signalling.spi

/-! ### Pins that follow from the state -/

/-- What the pin of a line shows: its level while its drive is ON, high-impedance otherwise (R55). -/
def LineUnit.pin (u : LineUnit) (l : Fin 16) : Option Bool :=
  if u.drives.getLsbD l.val then some (u.levels.getLsbD l.val) else none

/-- LDE is asserted while the transmitter is SENDING (R172). -/
def LinkPort.driverEnabled (k : LinkPort) : Bool :=
  match k.transmitter with
  | .quiet => false
  | .sending _ _ _ => true

/-- TXD: 1 while the transmitter is QUIET; while SENDING the bits of the frame's characters one after another, each held
for 16 sample periods (R160, R172). -/
def LinkPort.txd (k : LinkPort) : Bool :=
  match k.transmitter with
  | .quiet => true
  | .sending _ chars periods => (chars.flatMap LinkChar.bits).getD (periods / Config.bitSamples) true

/-! ### The two-sample filter of the trigger inputs and the FREEZE pin (R73, R121) -/

/-- Two successive samples, the last one before these counted in, both show the level opposite to the sampled one. -/
def passes (level last : Bool) : List Bool → Bool
  | [] => false
  | b :: rest => (last != level && b != level) || passes level b rest

/-- What samples do at the filter: the sampled level is kept and the last sample is remembered; it changes at the last
of them; or it changes before, so that they do not end at its change. -/
inductive Filtered where
  | kept (sample : Bool)
  | changed
  | beyond
deriving DecidableEq, Repr

/-- Samples at the filter of an input with this sampled level and this last sample (R73). -/
def filtered (level last : Bool) (samples : List Bool) : Filtered :=
  if !passes level last samples then .kept (samples.getLastD last)
  else if passes level last samples.dropLast then .beyond
  else .changed

/-! ### The bits of an SPI transaction -/

/-- The kind that a complete kind byte selects (R148). -/
def kindOf (b : Byte) : SpiKind :=
  if b = Config.kindCommand then .command
  else if b = Config.kindFetch then .fetch
  else if b = Config.kindPoll then .poll
  else .unknown

/-- The kind of a transaction after these bits on SDI; none before the kind byte is complete (R146, R148). -/
def kindAfter (sdi : List Bool) : Option SpiKind := (spiBytes sdi).head?.map kindOf

/-- The complete bytes after the kind byte (R146). -/
def dataBytes (sdi : List Bool) : List Byte := (spiBytes sdi).tail

/-- A byte was partly received when SEL rose (R151). -/
def partlyReceived (sdi : List Bool) : Bool := sdi.length % 8 != 0

/-- The bits that an open transaction has to shift out before zeros follow: the status byte, and then the copied response
for a FETCH (R147, R148, R152, Table 10.3). -/
def Transaction.outBits (t : Transaction) (kind : Option SpiKind) : List Bool :=
  spiBits t.status ++
    match kind with
    | some .fetch => ((t.copy.map responseBytes).getD []).flatMap spiBits
    | _ => []

/-- The bits on SDO of the transaction now on the pins, before zeros follow: of the open one, or of the one that a
RESET_PART cut (R158). -/
def SpiPort.outBits (p : SpiPort) (sdi : List Bool) : List Bool :=
  match p.transaction with
  | some t => t.outBits (kindAfter sdi)
  | none => p.cut.getD []

/-- The first bits of a string, filled up with zeros. -/
def padded (bits : List Bool) (count : Nat) : List Bool :=
  bits.take count ++ List.replicate (count - bits.length) false

/-- The falling edges of SCK since SEL fell, in mode 0: one for each rising edge, but for the last one while SCK is still
high (R146, 00 section 4). -/
def sckFalls (sdi : List Bool) (sckHigh : Bool) : Nat := sdi.length - sckHigh.toNat

/-- What SDO shows after these bits on SDI, read at the rising edges of SCK, with SCK at a level: high-impedance while SEL
is high or NRESET is held, and in a low SEL at which no transaction opened; else the first bit from the fall of SEL, and
the next one after each falling edge (R146, R159; log 15). -/
def State.sdoPin (s : State) (sdi : List Bool) (sckHigh : Bool) : Option Bool :=
  if s.phase != .held && s.spi.selLow && (s.spi.transaction.isSome || s.spi.cut.isSome) then
    some ((s.spi.outBits sdi).getD (sckFalls sdi sckHigh) false)
  else none

/-- The bits that a RESET_PART leaves a transaction on the pins to shift out before zeros follow: those shifted already,
and the rest of the status byte (R158). -/
def SpiPort.cutAfter (p : SpiPort) (sdi : List Bool) : Option (List Bool) :=
  match p.transaction with
  | some t => some (padded (t.outBits (kindAfter sdi)) sdi.length ++ (spiBits t.status).drop sdi.length)
  | none => p.cut

/-! ### The link between events: pending settings and the transmit arbiter (R171, R175) -/

/-- The receiver is HUNTING and not inside a character, and the transmitter is QUIET. -/
def LinkPort.lineFree (k : LinkPort) : Bool :=
  k.receiver == .hunting && !k.insideChar && k.transmitter == .quiet

/-- The link is idle (R175). -/
def State.linkIdle (s : State) : Bool :=
  s.link.lineFree && s.ctl.responses.link.isNone && s.ctl.commands.link.isNone && !s.notices.marker

/-- The link port with its pending settings in force (R175). -/
def LinkPort.applyPending (k : LinkPort) : LinkPort :=
  match k.pendingSettings with
  | some settings => { k with settings := settings, pendingSettings := none, idleSamples := 0, divider := 0 }
  | none => k

/-- Pending settings come into force within an event that leaves the link idle (R175, log 10). -/
def State.settlePending (s : State) : State :=
  if s.linkIdle then { s with link := s.link.applyPending } else s

/-- The idle count: bit-times of high line, up to Q (R170). -/
def LinkPort.idleCount (k : LinkPort) : Nat := k.idleSamples / Config.bitSamples

/-- A transmission can begin: the transmitter is QUIET, the receiver is HUNTING and not inside a character, and the idle
count has reached Q (R171). -/
def LinkPort.lineReady (k : LinkPort) : Bool := k.lineFree && decide (k.settings.q.toNat ≤ k.idleCount)

/-- The conditions of R171 hold: a transmission can begin, and a response waits or the marker request is pending. -/
def State.sendDue (s : State) : Bool := s.link.lineReady && (s.ctl.responses.link.isSome || s.notices.marker)

/-- The address character of a frame from the part: direction from a part, the part's address (R163, R172). -/
def LinkPort.addressFrom (k : LinkPort) : LinkChar := { data := 0x80 ||| k.address.setWidth 8, mark := true }

/-- The characters of a frame: the part's address character and data characters (R172, R173). -/
def LinkPort.characters (k : LinkPort) (bytes : List Byte) : List LinkChar :=
  k.addressFrom :: bytes.map fun b => { data := b, mark := false }

/-- The link port as it begins to send a frame (R171, R172). The model's choice (log 26): the sample periods of the
frame count from this event, so that its first bit too is held for 16 whole periods. -/
def LinkPort.send (k : LinkPort) (what : SentFrame) (bytes : List Byte) : LinkPort :=
  { k with transmitter := .sending what (k.characters bytes) 0, divider := 0 }

/-- The transmit arbiter: where a transmission can begin, a waiting response is sent before a pending marker, whose
request becomes none (R171, R173). -/
def State.beginSending (s : State) : State :=
  if s.link.lineReady then
    match s.ctl.responses.link with
    | some r => { s with link := s.link.send .response (responseBytes r) }
    | none =>
      if s.notices.marker then
        { s with
          link := s.link.send .marker [Config.markerChar]
          notices := { s.notices with marker := false } }
      else s
  else s

/-- How every event ends that can leave the link idle or a transmission due: pending settings come into force on an idle
link (R175), and a transmission begins whose conditions hold (R171), within the event (log 10, log 25). -/
def State.settleLink (s : State) : State := s.settlePending.beginSending

/-! ### Taking a command -/

/-- The outcome of a command's checks and execution: its result, the response body, the two FLAGS bits that do not
come from the slot, and the part after it. -/
structure Answer where
  result : Result
  body : List Byte
  overwrote : Bool
  notConsumed : Bool
  state : State
deriving DecidableEq, Repr

/-- The command is executed with result OK (R129). -/
def Answer.ok (body : List Byte) (s : State) : Answer :=
  { result := .ok, body := body, overwrote := false, notConsumed := false, state := s }

/-- The command is refused and changes nothing (R135). -/
def Answer.refuse (r : Result) (s : State) : Answer :=
  { result := r, body := [], overwrote := false, notConsumed := false, state := s }

/-- The port whose command the controller takes next: the one with a command, or the other than the last served when
both have one; none while the part is not running (R127, R144). -/
def State.served (s : State) : Option Port :=
  if s.running then
    match s.ctl.commands.spi, s.ctl.commands.link with
    | none, none => none
    | some _, none => some .spi
    | none, some _ => some .link
    | some _, some _ => some s.ctl.lastServed.other
  else none

/-- The frame that carries a command. -/
def cmdFrame (code : Byte) (c : Cmd) : CommandFrame :=
  { code := code, seq := c.seq, body := c.body, broadcast := c.src.isBroadcast }

/-- The command is the one the controller takes next: its port is served and its frame stands in that port's command
slot (R125, R127; log 3). -/
def State.takes (s : State) (code : Byte) (c : Cmd) : Bool :=
  s.served == some c.src.port && s.ctl.commands.get c.src.port == some (cmdFrame code c)

/-- The take empties the command slot and sets last served (R127, R128). -/
def State.emptySlot (s : State) (p : Port) : State :=
  { s with ctl := { s.ctl with commands := s.ctl.commands.set p none, lastServed := p } }

/-- A response placed in the SPI response slot replaces one held there, with FLAGS bit 0; an open transaction learns
of it (R126, R153, R155). -/
def State.placeSpi (s : State) (r : Response) : State :=
  { s with
    ctl := { s.ctl with
      responses :=
        s.ctl.responses.set .spi (some { r with overwrote := r.overwrote || s.ctl.responses.spi.isSome }) }
    spi := { s.spi with transaction := s.spi.transaction.map fun t => { t with placed := true } } }

/-- A response placed in the link response slot (R126). -/
def State.placeLink (s : State) (r : Response) : State :=
  { s with ctl := { s.ctl with responses := s.ctl.responses.set .link (some r) } }

/-- The response to a command goes to the slot of its port; a broadcast command has none (R126, R137). -/
def State.reply (s : State) (src : Source) (r : Response) : State :=
  match src with
  | .spi => s.placeSpi r
  | .link => s.placeLink r
  | .broadcast => s

/-- The response frame that answers a command (R129). -/
def Answer.response (code : Byte) (c : Cmd) (a : Answer) : Response :=
  { code := code + 0x80, seq := c.seq, result := a.result, overwrote := a.overwrote, notConsumed := a.notConsumed,
    body := a.body }

/-- The end of a take: the response is placed, and the link is settled. -/
def Answer.finish (code : Byte) (c : Cmd) (a : Answer) : State :=
  (a.state.reply c.src (a.response code c)).settleLink

/-- From which ports a command is taken (R133). -/
inductive Permit where
  | either
  | spiOnly
  | linkOnly
deriving DecidableEq, Repr

/-- The port has permission (R133). -/
def Permit.admits : Permit → Port → Bool
  | .either, _ => true
  | .spiOnly, p => p == .spi
  | .linkOnly, p => p == .link

/-- Stages 2 and 3 of the check order, then the command's own checks and execution (R131). -/
def checked (lengthOk : Nat → Bool) (permit : Permit) (run : Port → List Byte → State → Answer) (p : Port)
    (body : List Byte) (s : State) : Answer :=
  if !lengthOk body.length then Answer.refuse .length s
  else if !permit.admits p then Answer.refuse .notPermitted s
  else run p body s

/-- The take of a command, whole in one event (R128). A take that is not the controller's next does not arise and
leaves the part as it is (log 2, log 3). -/
def takeCommand (code : Byte) (lengthOk : Nat → Bool) (permit : Permit)
    (run : Port → List Byte → State → Answer) (c : Cmd) (s : State) : State :=
  if s.takes code c then
    (checked lengthOk permit run c.src.port c.body (s.emptySlot c.src.port)).finish code c
  else s

/-- Stage 4: the body's arguments, or RANGE (R131). -/
def withBody {α : Type} (read : List Byte → Option α) (body : List Byte) (s : State) (run : α → Answer) : Answer :=
  match read body with
  | some a => run a
  | none => Answer.refuse .range s

/-- Stages 5 and 6: the named entry must be allocated and owned by the issuing port (R131). -/
def withOwned (p : Port) (e : EntryId) (s : State) (run : Entry → Answer) : Answer :=
  match s.entry e with
  | some a => if a.owner = p then run a else Answer.refuse .notOwner s
  | none => Answer.refuse .noEntry s

/-- The length check of a command that takes one body length (R132). -/
def exactly (n : Nat) : Nat → Bool := fun k => k == n

end Sys2Proof.Machine
end

