-- ==== Sys2Proof/Machine/Link.lean ====
section
/-!
DEFINITION. The serial link port of chapter 9: its receiver, its transmitter, and LINK_CONFIG and LINK_STATUS.
-/
namespace Sys2Proof.Machine

/-! ### The samples of RXD (R160, R161, R167, R170) -/

/-- A frame is in assembly. -/
def LinkPort.isAssembling (k : LinkPort) : Bool := k.receiver != .hunting

/-- One sample of RXD: the idle count rises at 1, up to Q bit-times, and is 0 at 0 (R170); in assembly the sample counts
toward the gap (R167). -/
def LinkPort.sample (k : LinkPort) (b : Bool) : LinkPort :=
  { k with
    rxdHigh := b
    idleSamples := if b then min (k.idleSamples + 1) (Config.bitSamples * k.settings.q.toNat) else 0
    sinceChar := if k.isAssembling then k.sinceChar + 1 else k.sinceChar }

/-- Samples of RXD, one after another. -/
def LinkPort.hear (k : LinkPort) (rxd : List Bool) : LinkPort := rxd.foldl LinkPort.sample k

/-- The part after samples of RXD. -/
def State.hear (s : State) (rxd : List Bool) : State := { s with link := s.link.hear rxd }

/-- A sample at 0 after a sample at 1, which outside a character is a start bit's sample 0 (R161). -/
def falls (high : Bool) : List Bool → Bool
  | [] => false
  | b :: rest => (high && !b) || falls b rest

/-- The sample G bit-times after the end of the last stop bit has been taken, so that no later start bit comes within G
bit-times. The end of the stop bit lies 7 sample periods after its sample 9, at which the character completed (R161,
R167; log 7). -/
def LinkPort.gapPassed (k : LinkPort) : Bool :=
  decide (Config.bitSamples * k.settings.g.toNat + Config.stopTail ≤ k.sinceChar)

/-! ### The receiver (R161 to R169) -/

/-- The part is running and the port is not transmitting, so that the receiver heeds RXD (R144, R172). The model's
choice (log 23): R172 makes the receiver deaf while a response is sent, so no frame completes then, although row 2 of
R177 and 'being sent' in R168 speak of one; the slot test of R168 would find the response and record OVERRUN. -/
def State.hears (s : State) : Bool := s.running && s.link.transmitter == .quiet

/-- The receiver is inside a character and heeds RXD. -/
def State.inCharacter (s : State) : Bool := s.hears && s.link.insideChar

/-- The receiver is outside a character, heeds RXD, and finds no start bit in these samples (R161). -/
def State.quietDuring (s : State) (rxd : List Bool) : Bool :=
  s.hears && !s.link.insideChar && !falls s.link.rxdHigh rxd

/-- The frame in assembly is abandoned with a cause: the buffer goes and the receiver returns to HUNTING (R169). -/
def LinkPort.abandon (k : LinkPort) (e : LinkError) : LinkPort :=
  { k with receiver := .hunting, lastError := e, sinceChar := 0 }

/-- A frame in assembly is abandoned with GAP if its gap has passed (R167). -/
def LinkPort.endGap (k : LinkPort) : LinkPort := if k.isAssembling && k.gapPassed then k.abandon .gap else k

/-- START_BIT: after these samples, the last of them at 1, sample 0 of a possible start bit puts the receiver inside a
character, and the line counts as active (R161, R170). In assembly it begins before the gap has passed (R167); other
start bits do not arise (log 2, log 8), nor does one after samples at which a transmission would have begun (R171). -/
def execStartBit (rxd : List Bool) (s : State) : Host.Outcome State Fault Refusal :=
  let heard := s.link.hear rxd
  if s.quietDuring rxd && heard.rxdHigh && !(heard.isAssembling && heard.gapPassed) && !(s.hear rxd).sendDue then
    .next { s with link := { heard.sample false with insideChar := true } }
  else .next s

/-- FALSE_START: fewer than two of samples 7, 8 and 9 of the start bit are 0. The receiver leaves the character without
an error; if G bit-times have passed by then the frame in assembly is abandoned with GAP (R161, R167; log 7). -/
def execFalseStart (rxd : List Bool) (s : State) : Host.Outcome State Fault Refusal :=
  if s.inCharacter && rxd.length == Config.falseStartSamples && readBit (false :: rxd) 0 then
    .next ({ s with link := { s.link.hear rxd with insideChar := false }.endGap } : State).settleLink
  else .next s

/-- GAP: more than G bit-times with no valid start bit begun (R167). The abandonment falls when they pass, so samples
that go on past the first one at which they have do not arise (log 2). -/
def execGap (rxd : List Bool) (s : State) : Host.Outcome State Fault Refusal :=
  let heard := s.link.hear rxd
  if s.quietDuring rxd && heard.isAssembling && heard.gapPassed &&
      (rxd.isEmpty || !(s.link.hear rxd.dropLast).gapPassed) then
    .next ({ s with link := heard.abandon .gap } : State).settleLink
  else .next s

/-- What an address character starts: a frame for the part, a broadcast frame, or nothing (R163, R164). -/
def addressed (own : BitVec 4) (data : Byte) : Receiver :=
  if data.extractLsb' 4 4 ≠ 0 then .hunting
  else if data.extractLsb' 0 4 = 0 then .assembling true []
  else if data.extractLsb' 0 4 = own then .assembling false []
  else .hunting

/-- An address character: it abandons a frame in assembly with SPLIT, and is then examined as in HUNTING (R164, R166). -/
def LinkPort.addressChar (k : LinkPort) (data : Byte) : LinkPort :=
  { k with
    lastError := if k.isAssembling then .split else k.lastError
    receiver := addressed k.address data }

/-- The part with a completed frame judged: CHECK, OVERRUN, or accepted into the link command slot (R168). -/
def State.judgeLink (s : State) (broadcast : Bool) (frame : List Byte) : State :=
  if !checkOk frame then { s with link := s.link.abandon .check }
  else if s.ctl.commands.link.isSome || s.ctl.responses.link.isSome then { s with link := s.link.abandon .overrun }
  else
    { s with
      ctl := { s.ctl with commands := s.ctl.commands.set .link (frameCommand frame broadcast) }
      link := { s.link with receiver := .hunting } }

/-- A data character during assembly: LEN first, then LEN more characters, the last of them CHECK (R165). -/
def State.dataChar (s : State) (broadcast : Bool) (buffer : List Byte) (data : Byte) : State :=
  match buffer with
  | [] =>
    if lenOk data then { s with link := { s.link with receiver := .assembling broadcast [data] } }
    else { s with link := s.link.abandon .length }
  | len :: rest =>
    if rest.length + 1 = len.toNat then s.judgeLink broadcast (len :: rest ++ [data])
    else { s with link := { s.link with receiver := .assembling broadcast (len :: rest ++ [data]) } }

/-- A character examined by the state of the receiver (R162, R164 to R166). -/
def State.examine (s : State) (data : Byte) (mark stop : Bool) : State :=
  if !stop then (if s.link.isAssembling then { s with link := s.link.abandon .framing } else s)
  else if mark then { s with link := s.link.addressChar data }
  else
    match s.link.receiver with
    | .hunting => s
    | .assembling broadcast buffer => s.dataChar broadcast buffer data

/-- The link port as a character completes: outside it, with no sample seen since (R161, R162, R167; log 7,
log 8). -/
def LinkPort.charEnds (k : LinkPort) (rxd : List Bool) : LinkPort :=
  { k.hear rxd with insideChar := false, rxdHigh := false, sinceChar := 0 }

/-- CHARACTER_COMPLETE: a valid start bit, and the data byte, mark bit and stop bit that the samples show (R161). -/
def execCharacterComplete (rxd : List Bool) (s : State) : Host.Outcome State Fault Refusal :=
  let samples := false :: rxd
  if s.inCharacter && rxd.length == Config.characterSamples && !readBit samples 0 then
    .next (({ s with link := s.link.charEnds rxd } : State).examine (readData samples) (readMark samples)
      (readStop samples)).settleLink
  else .next s

/-! ### The transmitter (R170 to R173) -/

/-- TRANSMISSION_BEGIN: the idle count reaches Q at the last of these samples, while a response waits or the marker
request is pending (R171). Where another event brings the conditions about, that event begins the transmission, and
samples that go on past the first one at which they hold do not arise (log 2, log 25). -/
def execTransmissionBegin (rxd : List Bool) (s : State) : Host.Outcome State Fault Refusal :=
  if s.quietDuring rxd && (s.hear rxd).sendDue && (rxd.isEmpty || !(s.hear rxd.dropLast).sendDue) then
    .next (s.hear rxd).beginSending
  else .next s

/-- The sample periods of a frame on the line: eleven bit-times to a character, with no idle time between (R161, R172). -/
def framePeriods (chars : List LinkChar) : Nat := Config.bitSamples * Config.charBits * chars.length

/-- The part at the end of a transmission: QUIET, the idle count 0, RXD not yet seen at 1, and a sent response gone from
its slot (R170, R172). -/
def State.endSending (s : State) (what : SentFrame) : State :=
  { s with
    link := { s.link with transmitter := .quiet, idleSamples := 0, rxdHigh := false }
    ctl := { s.ctl with
      responses := match what with
        | .response => s.ctl.responses.set .link none
        | .marker => s.ctl.responses } }

/-- TRANSMISSION_END: the sample periods that bring the frame to the end of its last stop bit (R172). -/
def execTransmissionEnd (periods : Nat) (s : State) : Host.Outcome State Fault Refusal :=
  if s.running then
    match s.link.transmitter with
    | .sending what chars sent =>
      if sent + periods = framePeriods chars then .next (s.endSending what).settleLink else .next s
    | .quiet => .next s
  else .next s

/-- One sample period in which nothing comes on the line (R160; log 1): a frame being sent goes on, and ends with the
stop bit of its last character (R172); outside a character RXD is sampled at 1, where the line rests (R161, R170), and a
frame in assembly is abandoned when its gap passes (R167). -/
def State.restPeriod (s : State) : State :=
  match s.link.transmitter with
  | .sending what chars sent =>
    if sent + 1 < framePeriods chars then
      { s with link := { s.link with transmitter := .sending what chars (sent + 1) } }
    else s.endSending what
  | .quiet => if s.link.insideChar then s else { s with link := (s.link.sample true).endGap }

/-- One cycle of REFCLK in which nothing comes on the line: every D cycles make a sample period (R160; log 1). -/
def State.lineCycle (s : State) : State :=
  if s.link.divider + 1 < s.link.settings.d.toNat then { s with link := { s.link with divider := s.link.divider + 1 } }
  else ({ s with link := { s.link with divider := 0 } } : State).restPeriod

/-! ### Link settings (R174, R175, R176) -/

/-- PENDING_SETTINGS_IN_FORCE: pending settings come into force when the link is idle (R175, log 10). -/
def execPendingSettingsInForce (s : State) : Host.Outcome State Fault Refusal :=
  if s.running then .next s.settlePending else .next s

/-- LINK_CONFIG after stages 1 to 3: the settings become pending; they come into force within the take if the link is
idle, by the settling at its end (R174, R175). -/
def runLinkConfig (_p : Port) (body : List Byte) (s : State) : Answer :=
  withBody readLinkConfigBody body s fun settings =>
    Answer.ok [] { s with link := { s.link with pendingSettings := some settings } }

/-- LINK_CONFIG (R174). -/
def execLinkConfig (c : Cmd) (s : State) : Host.Outcome State Fault Refusal :=
  .next (takeCommand 0x60 (exactly 4) .spiOnly runLinkConfig c s)

/-- The LINK_STATUS record (Table 10.17). -/
def linkRecord (k : LinkPort) : List Byte :=
  [k.address.setWidth 8] ++ bytes16 k.settings.d ++ [k.settings.g, k.settings.q] ++
    (match k.pendingSettings with
      | some w => [1] ++ bytes16 w.d ++ [w.g, w.q]
      | none => [0] ++ bytes16 0 ++ [0, 0]) ++
    [linkErrorByte k.lastError]

/-- LINK_STATUS after stages 1 to 3: the last link error is cleared (R176). -/
def runLinkStatus (_p : Port) (_body : List Byte) (s : State) : Answer :=
  Answer.ok (linkRecord s.link) { s with link := { s.link with lastError := .none } }

/-- LINK_STATUS (R176). -/
def execLinkStatus (c : Cmd) (s : State) : Host.Outcome State Fault Refusal :=
  .next (takeCommand 0x61 (exactly 0) .either runLinkStatus c s)

end Sys2Proof.Machine
end

