-- ==== Sys2Proof/Machine/Time.lean ====
section
/-!
DEFINITION. The time base of chapter 6: its events (TICK, the lock events, CHANGEOVER_COMPLETE, FREEZE_PIN_CHANGE) and
its commands (READ_TIME, SET_TIME, SYNTH_SET, SYNTH_ON, SYNTH_OFF, SELECT, PRESCALE, FREEZE).
-/
namespace Sys2Proof.Machine

/-! ### TICK (R117, R118) -/

/-- The time base after a tick: the count advances and wraps, the prescaler restarts, a pending exponent comes into
force (R117, R118). -/
def TimeBase.ticked (t : TimeBase) : TimeBase :=
  { t with count := t.count + 1, prescaler := 0, exponent := t.pendingExponent.getD t.exponent
           pendingExponent := none }

/-- The ticks that an entry of the due list has waited to be fired: those from the later of the moment it became due
and the moment it was armed (R27). -/
def State.waited (s : State) (e : EntryId) : Nat := (-(s.keyOf e)).toNat - s.armedPast.get e

/-- The tick that would come next cannot come before this entry of the due list has fired: it would be the 2^16-th of
its wait, or would carry its due round from the most negative difference (R27; log 9). -/
def State.mustFire (s : State) (e : EntryId) : Bool :=
  decide (Config.promptTicks ≤ s.waited e + 1) || s.keyOf e == Config.mostPast

/-- The engine fires some due entry before the next tick (R27). -/
def State.firesFirst (s : State) : Bool := s.dueList.any s.mustFire

/-- The cycles of the selected clock in a tick: 2^k (R118). -/
def TimeBase.tickCycles (t : TimeBase) : Nat := 2 ^ t.exponent.toNat

/-- Cycles of the selected clock pass, at most up to the next tick. The prescaler count runs only while the time count
advances; the cycle that completes 2^k makes the tick (R117, R118, R123). More cycles than are left of a tick do not
pass without it, and no tick comes before the entries that must be fired first (R27; log 1, log 9). -/
def State.cycles (s : State) (n : Nat) : State :=
  if s.running && s.time.advancing then
    if s.time.prescaler + n < s.time.tickCycles then
      { s with time := { s.time with prescaler := s.time.prescaler + n } }
    else if s.time.prescaler + n = s.time.tickCycles ∧ s.firesFirst = false then { s with time := s.time.ticked }
    else s
  else s

/-- TICK (R117, R118): the cycles that pass, and the tick if they complete it. -/
def execTick (cycles : Nat) (s : State) : Host.Outcome State Fault Refusal := .next (s.cycles cycles)

/-- The part after a number of single cycles of the selected clock. -/
def State.cycleByCycle : Nat → State → State
  | 0, s => s
  | n + 1, s => State.cycleByCycle n (s.cycles 1)

/-! ### Lock events (R106, R110 to R113) -/

/-- The multiplier in effect: N = 0 acts as 1 (R106). -/
def TimeBase.multiplier (t : TimeBase) : Nat := if t.n = 0 then 1 else t.n.toNat

/-- The cycles of the selected clock in one cycle of REFCLK: 1 of REF, N of SYNTH (R105, R106). -/
def TimeBase.cyclesPerRef (t : TimeBase) : Nat :=
  match t.source with
  | .ref => 1
  | .synth => t.multiplier

/-- The loop can gain lock at this reference frequency in hertz: f_REF × N lies in the band 6·L to 12·L MHz and is at
most 100 MHz (R106). -/
def TimeBase.inBand (t : TimeBase) (fRef : Nat) : Bool :=
  decide (t.l.toNat * 6000000 ≤ fRef * t.multiplier) && decide (fRef * t.multiplier ≤ t.l.toNat * 12000000) &&
    decide (fRef * t.multiplier ≤ 100000000)

/-- Lock gained arises: the loop is ACQUIRING or UNLOCKED and its product lies in the band (R106, R107). -/
def TimeBase.canGain (t : TimeBase) (fRef : Nat) : Bool :=
  (t.synth == .acquiring || t.synth == .unlocked) && t.inBand fRef

/-- LOCK_GAINED (R111): a hold ends with HOLD_ENDED (R110). -/
def execLockGained (fRef : Nat) (s : State) : Host.Outcome State Fault Refusal :=
  if s.running && s.time.canGain fRef then
    .next ({ s with time := { s.time with synth := .locked, hold := false } }.postTime
      { lockGained := true, holdEnded := s.time.hold })
  else .next s

/-- The time base after lock lost, and the flags of its posting (R112, R113). -/
def TimeBase.lose (t : TimeBase) : TimeBase × TimeFlags :=
  match t.source, t.changeover with
  | .ref, some { target := .synth, .. } =>
    ({ t with synth := .unlocked, changeover := none }, { lockLost := true })
  | .ref, _ => ({ t with synth := .unlocked }, { lockLost := true })
  | .synth, some _ => ({ t with synth := .unlocked }, { lockLost := true })
  | .synth, none =>
    match t.policy with
    | .fallback =>
      ({ t with synth := .unlocked, changeover := some { target := .ref, kind := .fallback } },
        { lockLost := true, fellBack := true })
    | .hold => ({ t with synth := .unlocked, hold := true }, { lockLost := true, holdBegun := true })

/-- LOCK_LOST (R112, R113): it arises in LOCKED alone (R107). -/
def execLockLost (s : State) : Host.Outcome State Fault Refusal :=
  if s.running && s.time.synth == .locked then
    .next ({ s with time := s.time.lose.1 }.postTime s.time.lose.2)
  else .next s

/-! ### CHANGEOVER_COMPLETE (R109) -/

/-- The time base after a changeover to a target completes (R109, R110, R118). -/
def TimeBase.complete (t : TimeBase) (target : ClockSource) : TimeBase :=
  { t with source := target, changeover := none, hold := false, prescaler := 0
           exponent := t.pendingExponent.getD t.exponent, pendingExponent := none }

/-- The target of the changeover that can complete: one to SYNTH needs the synthesizer LOCKED (R109). -/
def TimeBase.completing (t : TimeBase) : Option ClockSource :=
  match t.changeover with
  | some { target := .ref, .. } => some .ref
  | some { target := .synth, .. } => if t.synth = .locked then some .synth else none
  | none => none

/-- CHANGEOVER_COMPLETE (R109). -/
def execChangeoverComplete (s : State) : Host.Outcome State Fault Refusal :=
  if s.running then
    match s.time.completing with
    | some target =>
      .next ({ s with time := s.time.complete target }.postTime { changedOver := true, holdEnded := s.time.hold })
    | none => .next s
  else .next s

/-- FREEZE_PIN_CHANGE: the samples of the FREEZE pin since its last event, at the last of which its sampled level changes
under the two-sample filter (R121). Samples with a change before the last one do not end at it (log 2). -/
def execFreezePinChange (samples : List Bool) (s : State) : Host.Outcome State Fault Refusal :=
  if s.running then
    match filtered s.time.freezePin s.time.freezeSample samples with
    | .kept b => .next { s with time := { s.time with freezeSample := b } }
    | .changed => .next { s with time := { s.time with freezePin := !s.time.freezePin, freezeSample := !s.time.freezePin } }
    | .beyond => .next s
  else .next s

/-! ### READ_TIME and SET_TIME (R119, R120) -/

/-- Bits 0 to 4 that STATUS and READ_TIME share: source, synthesizer state, changeover, hold (Table 10.15). -/
def timeSummary (t : TimeBase) : Byte :=
  bitAt (decide (t.source = .synth)) 0 ||| (synthByte t.synth <<< 1) ||| bitAt t.changeover.isSome 3 ||| bitAt t.hold 4

/-- The target of the changeover in flight is SYNTH (Table 10.16). -/
def TimeBase.towardSynth (t : TimeBase) : Bool :=
  match t.changeover with
  | some c => c.target == .synth
  | none => false

/-- The changeover in flight is of kind fallback (Table 10.16). -/
def TimeBase.fallingBack (t : TimeBase) : Bool :=
  match t.changeover with
  | some c => c.kind == .fallback
  | none => false

/-- The pending exponent byte: value and presence bit (Table 10.16). -/
def pendingByte : Option (BitVec 4) → Byte
  | some k => k.setWidth 8 ||| 0x80
  | none => 0

/-- The READ_TIME record (Table 10.16). -/
def timeRecord (t : TimeBase) : List Byte :=
  bytes32 t.count ++
    [timeSummary t ||| bitAt t.towardSynth 5 ||| bitAt t.fallingBack 6, t.n.setWidth 8, t.l.setWidth 8,
      policyByte t.policy, t.exponent.setWidth 8, pendingByte t.pendingExponent,
      bitAt t.freezePin 0 ||| bitAt t.freezeCommand 1 ||| bitAt t.frozen 2]

/-- READ_TIME after stages 1 to 3 (R120). -/
def runReadTime (_p : Port) (_body : List Byte) (s : State) : Answer := Answer.ok (timeRecord s.time) s

/-- READ_TIME (R120). -/
def execReadTime (c : Cmd) (s : State) : Host.Outcome State Fault Refusal :=
  .next (takeCommand 0x50 (exactly 0) .either runReadTime c s)

/-- The record with the due of an ARMED entry shifted (R119). -/
def Entry.shift (a : Entry) (shift : Word) : Entry :=
  match a.state with
  | .armed due => { a with state := .armed (due + shift) }
  | _ => a

/-- The part with the time count at t, and every due and every present capture shifted with it (R119). -/
def State.setTime (s : State) (t : Word) : State :=
  { s with
    time := { s.time with count := t }
    entries := s.entries.map fun r => r.map fun a => a.shift (t - s.time.count)
    triggers := s.triggers.map fun r => { r with capture := r.capture.map fun c => c + (t - s.time.count) } }

/-- SET_TIME after stages 1 to 3 (R119). -/
def runSetTime (_p : Port) (body : List Byte) (s : State) : Answer :=
  withBody readTimeBody body s fun t => Answer.ok [] (s.setTime t)

/-- SET_TIME (R119). -/
def execSetTime (c : Cmd) (s : State) : Host.Outcome State Fault Refusal :=
  .next (takeCommand 0x51 (exactly 4) .spiOnly runSetTime c s)

/-! ### The synthesizer and the source (R114, R115, R116) -/

/-- The time base with the parts present of a SYNTH_SET (R114). -/
def TimeBase.write (t : TimeBase) (w : SynthWrite) : TimeBase :=
  { t with
    n := (w.nl.map Prod.fst).getD t.n
    l := (w.nl.map Prod.snd).getD t.l
    policy := w.policy.getD t.policy }

/-- SYNTH_SET after stages 1 to 3 (R114). -/
def runSynthSet (_p : Port) (body : List Byte) (s : State) : Answer :=
  withBody readSynthSetBody body s fun w =>
    if w.nl.isSome ∧ s.time.synth ≠ .off then Answer.refuse .settingLocked s
    else Answer.ok [] { s with time := s.time.write w }

/-- SYNTH_SET (R114). -/
def execSynthSet (c : Cmd) (s : State) : Host.Outcome State Fault Refusal :=
  .next (takeCommand 0x52 (exactly 4) .spiOnly runSynthSet c s)

/-- SYNTH_ON after stages 1 to 3 (R115). -/
def runSynthOn (_p : Port) (_body : List Byte) (s : State) : Answer :=
  if s.time.synth = .off then
    if s.time.l = 0 then Answer.refuse .settingLocked s
    else Answer.ok [] { s with time := { s.time with synth := .acquiring } }
  else Answer.ok [] s

/-- SYNTH_ON (R115). -/
def execSynthOn (c : Cmd) (s : State) : Host.Outcome State Fault Refusal :=
  .next (takeCommand 0x53 (exactly 0) .spiOnly runSynthOn c s)

/-- SYNTH_OFF after stages 1 to 3 (R115). -/
def runSynthOff (_p : Port) (_body : List Byte) (s : State) : Answer :=
  if s.time.source = .synth ∨ s.time.towardSynth = true then Answer.refuse .settingLocked s
  else Answer.ok [] { s with time := { s.time with synth := .off } }

/-- SYNTH_OFF (R115). -/
def execSynthOff (c : Cmd) (s : State) : Host.Outcome State Fault Refusal :=
  .next (takeCommand 0x54 (exactly 0) .spiOnly runSynthOff c s)

/-- SELECT after stages 1 to 3 (R116). -/
def runSelect (_p : Port) (body : List Byte) (s : State) : Answer :=
  withBody readSelectBody body s fun source =>
    if s.time.changeover.isSome then Answer.refuse .busy s
    else if source = s.time.source then Answer.ok [] s
    else if source = .synth ∧ s.time.synth ≠ .locked then Answer.refuse .notLocked s
    else
      Answer.ok []
        { s with time := { s.time with changeover := some { target := source, kind := .requested } } }

/-- SELECT (R116). -/
def execSelect (c : Cmd) (s : State) : Host.Outcome State Fault Refusal :=
  .next (takeCommand 0x55 (exactly 1) .spiOnly runSelect c s)

/-! ### PRESCALE and FREEZE (R118, R122) -/

/-- The time base after PRESCALE: pending while the count advances, at once otherwise (R118). -/
def TimeBase.prescale (t : TimeBase) (k : BitVec 4) : TimeBase :=
  if t.advancing then { t with pendingExponent := some k }
  else { t with exponent := k, pendingExponent := none, prescaler := 0 }

/-- PRESCALE after stages 1 to 3 (R118). -/
def runPrescale (_p : Port) (body : List Byte) (s : State) : Answer :=
  withBody readPrescaleBody body s fun k => Answer.ok [] { s with time := s.time.prescale k }

/-- PRESCALE (R118). -/
def execPrescale (c : Cmd) (s : State) : Host.Outcome State Fault Refusal :=
  .next (takeCommand 0x56 (exactly 1) .spiOnly runPrescale c s)

/-- FREEZE after stages 1 to 3 (R122). -/
def runFreeze (_p : Port) (body : List Byte) (s : State) : Answer :=
  withBody readFreezeBody body s fun on => Answer.ok [] { s with time := { s.time with freezeCommand := on } }

/-- FREEZE (R122). -/
def execFreeze (c : Cmd) (s : State) : Host.Outcome State Fault Refusal :=
  .next (takeCommand 0x57 (exactly 1) .spiOnly runFreeze c s)

end Sys2Proof.Machine
end

