-- ==== Sys2Proof/Machine/Clock.lean ====
section
/-!
DEFINITION. What passes while no command or event comes: one cycle of REFCLK, which clocks the time base through the
selected source and the link port through its divisor, and at which the inputs are sampled (R73, R105, R160; log 1).
-/
namespace Sys2Proof.Machine

/-- The trigger inputs and the FREEZE pin sampled at the levels they were last seen at (R73, R121; log 1). -/
def State.restInputs (s : State) : State :=
  { s with
    triggers := s.triggers.map fun r => { r with sample := r.level }
    time := { s.time with freezeSample := s.time.freezePin } }

/-- One cycle of REFCLK in which no command or event comes: the inputs are sampled at their levels (R73), the time base
counts its cycles of the selected clock, with the ticks they complete (R118), and the link port has its sample periods
(R160, R170), with the beginnings and ends of frames that fall in them (R167, R171, R172, R175). While a reset holds the
part nothing runs (R144; log 1). -/
def State.refCycle (s : State) : State :=
  if s.running then (State.cycleByCycle s.time.cyclesPerRef s.restInputs.lineCycle).settleLink else s

end Sys2Proof.Machine
end

