-- ==== Sys2Proof/Machine/Arming.lean ====
section
/-!
DEFINITION. The commands of chapter 2 that place entries in the due list, move them in it and take them out of it:
STAGE, ARM_AT, ARM_IN, ARM_ON, DISARM, SUSPEND, RESUME, RETIME and NUDGE.
-/
namespace Sys2Proof.Machine

/-! ### STAGE (R48) -/

/-- STAGE after stages 1 to 3 (R48). -/
def runStage (p : Port) (body : List Byte) (s : State) : Answer :=
  withBody readStageBody body s fun (e, staged) =>
    withOwned p e s fun a =>
      if !s.lines.modeAdmits (staged.action.getD .none) then Answer.refuse .state s
      else if !s.lines.claimsAction p (staged.action.getD .none) then Answer.refuse .notClaimed s
      else Answer.ok [] (s.setEntry e (some { a with staged := staged }))

/-- STAGE (R48). -/
def execStage (c : Cmd) (s : State) : Host.Outcome State Fault Refusal :=
  .next (takeCommand 0x13 (exactly 9) .either runStage c s)

/-! ### The arming commands -/

/-- The response body of an arming command: the armed due and the skipped indication (R38, Table 10.12). -/
def armedBody (due : Word) (skipped : Bool) : List Byte := bytes32 due ++ [bitAt skipped 0]

/-- The arm of an entry at a target, with late handling (R38): `a` is the record it takes, but for its state. -/
def armWithLate (e : EntryId) (a : Entry) (target : Word) (s : State) : Answer :=
  match lateCommandArm a.late a.period target s.time.count with
  | .armed due skipped => Answer.ok (armedBody due skipped) (s.move e { a with state := .armed due })
  | .refused r => Answer.refuse r s

/-- ARM_AT after stages 1 to 3 (R40). -/
def runArmAt (p : Port) (body : List Byte) (s : State) : Answer :=
  withBody readEntryWordBody body s fun (e, target) =>
    withOwned p e s fun a =>
      if a.state ≠ .idle then Answer.refuse .state s
      else if difference target s.time.count < Config.farthestPast then Answer.refuse .range s
      else armWithLate e { a with left := a.reps } target s

/-- ARM_AT (R40). -/
def execArmAt (c : Cmd) (s : State) : Host.Outcome State Fault Refusal :=
  .next (takeCommand 0x14 (exactly 5) .either runArmAt c s)

/-- ARM_IN after stages 1 to 3 (R41). -/
def runArmIn (p : Port) (body : List Byte) (s : State) : Answer :=
  withBody readArmInBody body s fun (e, distance) =>
    withOwned p e s fun a =>
      if a.state ≠ .idle then Answer.refuse .state s
      else
        Answer.ok (armedBody (s.time.count + distance) false)
          (s.move e { a with state := .armed (s.time.count + distance), left := a.reps })

/-- ARM_IN (R41). -/
def execArmIn (c : Cmd) (s : State) : Host.Outcome State Fault Refusal :=
  .next (takeCommand 0x15 (exactly 5) .either runArmIn c s)

/-- ARM_ON after stages 1 to 3 (R42): the response carries the length of the park list after the append. -/
def runArmOn (p : Port) (body : List Byte) (s : State) : Answer :=
  withBody readEntryBody body s fun e =>
    withOwned p e s fun a =>
      match a.state, a.trigger with
      | .idle, some t =>
        let s' := s.move e { a with state := .parked }
        Answer.ok (bytesCount (s'.triggers.get t).park.length) s'
      | _, _ => Answer.refuse .state s

/-- ARM_ON (R42). -/
def execArmOn (c : Cmd) (s : State) : Host.Outcome State Fault Refusal :=
  .next (takeCommand 0x16 (exactly 1) .either runArmOn c s)

/-- DISARM after stages 1 to 3: an IDLE entry answers NOT_ARMED and nothing changes (R43). -/
def runDisarm (p : Port) (body : List Byte) (s : State) : Answer :=
  withBody readEntryBody body s fun e =>
    withOwned p e s fun a =>
      if a.state = .idle then Answer.refuse .notArmed s
      else Answer.ok [] (s.move e { a with state := .idle, staged := Staged.absent })

/-- DISARM (R43). -/
def execDisarm (c : Cmd) (s : State) : Host.Outcome State Fault Refusal :=
  .next (takeCommand 0x17 (exactly 1) .either runDisarm c s)

/-- The remaining distance of a due: its difference from the time count, or 0 if that is negative (R24, R44). -/
def remainingDistance (due now : Word) : Word := if difference due now < 0 then 0 else due - now

/-- SUSPEND after stages 1 to 3 (R44). -/
def runSuspend (p : Port) (body : List Byte) (s : State) : Answer :=
  withBody readEntryBody body s fun e =>
    withOwned p e s fun a =>
      match a.state with
      | .armed due =>
        Answer.ok (bytes32 (remainingDistance due s.time.count))
          (s.move e { a with state := .held (remainingDistance due s.time.count) })
      | _ => Answer.refuse .state s

/-- SUSPEND (R44). -/
def execSuspend (c : Cmd) (s : State) : Host.Outcome State Fault Refusal :=
  .next (takeCommand 0x18 (exactly 1) .either runSuspend c s)

/-- RESUME after stages 1 to 3 (R45). -/
def runResume (p : Port) (body : List Byte) (s : State) : Answer :=
  withBody readEntryBody body s fun e =>
    withOwned p e s fun a =>
      match a.state with
      | .held remaining =>
        Answer.ok (armedBody (s.time.count + remaining) false)
          (s.move e { a with state := .armed (s.time.count + remaining) })
      | _ => Answer.refuse .state s

/-- RESUME (R45). -/
def execResume (c : Cmd) (s : State) : Host.Outcome State Fault Refusal :=
  .next (takeCommand 0x19 (exactly 1) .either runResume c s)

/-- RETIME after stages 1 to 3 (R46). -/
def runRetime (p : Port) (body : List Byte) (s : State) : Answer :=
  withBody readEntryWordBody body s fun (e, target) =>
    withOwned p e s fun a =>
      match a.state with
      | .armed _ =>
        if difference target s.time.count < Config.farthestPast then Answer.refuse .range s
        else armWithLate e a target s
      | _ => Answer.refuse .state s

/-- RETIME (R46). -/
def execRetime (c : Cmd) (s : State) : Host.Outcome State Fault Refusal :=
  .next (takeCommand 0x1A (exactly 5) .either runRetime c s)

/-- NUDGE after stages 1 to 3: the new difference is computed as a whole number, without wrapping (R47). The model's
choice (log 27): R38 decides every late new due, that of a NUDGE of 0 on an entry whose due is past among them, although
R47 also says of a NUDGE of 0 that it is taken and re-inserts the entry at its own due. -/
def runNudge (p : Port) (body : List Byte) (s : State) : Answer :=
  withBody readNudgeBody body s fun (e, offset) =>
    withOwned p e s fun a =>
      match a.state with
      | .armed due =>
        if difference due s.time.count + offset.toInt > Config.farthestAhead then Answer.refuse .range s
        else if difference due s.time.count + offset.toInt < Config.farthestPast then Answer.refuse .range s
        else armWithLate e a (due + offset) s
      | _ => Answer.refuse .state s

/-- NUDGE (R47). -/
def execNudge (c : Cmd) (s : State) : Host.Outcome State Fault Refusal :=
  .next (takeCommand 0x1B (exactly 5) .either runNudge c s)

end Sys2Proof.Machine
end

