-- ==== Sys2Proof/Machine/Fire.lean ====
section
/-!
DEFINITION. The expiry engine of chapter 2: the firing of the due head of the due list through its four stages, and the
effect of each action kind on the line unit (chapter 3).
-/
namespace Sys2Proof.Machine

/-! ### Stage 1: the action (R29, R63, R64, R65) -/

/-- The levels after a line action (R63). -/
def lineAction (levels : BitVec 16) (op : LineOp) (l : Fin 16) : BitVec 16 :=
  match op with
  | .set => levels ||| BitVec.twoPow 16 l.val
  | .clear => levels &&& ~~~BitVec.twoPow 16 l.val
  | .toggle => levels ^^^ BitVec.twoPow 16 l.val

/-- A group one step on: position and index both wrap (R60, R64). -/
def Group.stepped (g : Group) (forward : Bool) : Group :=
  if forward then { g with position := g.position + 1, index := g.index + g.step.index }
  else { g with position := g.position - 1, index := g.index - g.step.index }

/-- A step of a group: whether it was refused at a limit, and the unit after it (R64). -/
def LineUnit.stepGroup (u : LineUnit) (g : Fin 4) (forward : Bool) : Bool × LineUnit :=
  if withinLimits (u.groups.get g).limits ((u.groups.get g).stepped forward).position then
    (false, u.putGroup g ((u.groups.get g).stepped forward))
  else (true, u)

/-- An action delivered by a firing: whether a step was refused at a limit, and the unit after it (Table 3.3). -/
def LineUnit.deliver (u : LineUnit) (a : Action) : Bool × LineUnit :=
  match a with
  | .none => (false, u)
  | .line op l => (false, { u with levels := lineAction u.levels op l })
  | .stepFwd g => u.stepGroup g true
  | .stepRev g => u.stepGroup g false
  | .loadPhase g i => (false, u.putGroup g { u.groups.get g with index := i })

/-! ### Stage 3: re-arm or completion (R31 to R35) -/

/-- The record after stage 3 has consumed the staged record (R31). -/
def Entry.consumeStaged (a : Entry) : Entry :=
  { a with period := a.staged.period.getD a.period, action := a.staged.action.getD a.action
           staged := Staged.absent }

/-- The record at completion: PARKED with repark on, IDLE with repark off (R33). -/
def Entry.complete (a : Entry) : Entry :=
  if a.repark && a.trigger.isSome then { a with state := .parked } else { a with state := .idle }

/-- What stage 3 leaves: the record in its new state, the flags it raises, and whether they force the notice. -/
structure Stage3 where
  record : Entry
  flags : EntryFlags
  forced : Bool
deriving DecidableEq, Repr

/-- Re-arm of a periodic entry whose due was fired, at the fired due plus the period, or by R35 when that is past. -/
def Entry.rearm (a : Entry) (due now : Word) : Stage3 :=
  if 0 ≤ difference (due + a.period) now then
    { record := { a with state := .armed (due + a.period) }, flags := {}, forced := false }
  else
    match a.late with
    | .fire =>
      { record := { a with state := .armed (firstGridPoint due now a.period) }, flags := { skipped := true },
        forced := false }
    | .skip =>
      { record := { a with state := .armed (firstGridPoint due now a.period) }, flags := { skipped := true },
        forced := false }
    | .refuse => { record := { a with state := .idle }, flags := { stopped := true }, forced := true }

/-- The periodic case of stage 3: left is decremented unless repeat is 0, and the entry completes with ENDED when it
reaches 0 (R32). -/
def Entry.periodic (a : Entry) (due now : Word) : Stage3 :=
  if a.reps = 0 then a.rearm due now
  else if a.left - 1 = 0 then
    { record := { a with left := a.left - 1 }.complete, flags := { ended := true }, forced := false }
  else { a with left := a.left - 1 }.rearm due now

/-- Stage 3 of a firing, on the record as it stood at the firing (R31). -/
def Entry.stage3 (a : Entry) (limit : Bool) (due now : Word) : Stage3 :=
  if limit then { record := { a.consumeStaged with state := .idle }, flags := { limit := true }, forced := true }
  else if a.consumeStaged.period = 0 then
    { record := a.consumeStaged.complete, flags := { ended := decide (a.reps ≠ 0) }, forced := false }
  else a.consumeStaged.periodic due now

/-! ### Stage 4: the chain (R36, R37) -/

/-- The record of a chain target armed at a due, with left set to repeat (R36). -/
def Entry.chainArmed (b : Entry) (due : Word) : Entry := { b with state := .armed due, left := b.reps }

/-- The late policy of a chain target that is IDLE or PARKED decides: the due at which it is armed, if it is, and the
flags for the firing entry's notice (R36, R37). -/
def Entry.chainDue (b : Entry) (target now : Word) : Option Word × EntryFlags :=
  if 0 ≤ difference target now then (some target, {})
  else
    match b.late with
    | .fire => (some target, {})
    | .skip => if b.period = 0 then (none, { skipped := true }) else (some (firstGridPoint target now b.period), {})
    | .refuse => (none, { stopped := true })

/-- The chain attempt of a firing on a target that is IDLE or PARKED (R36, R37). -/
def State.chainTry (s : State) (t : EntryId) (b : Entry) (fired : Word) : EntryFlags × State :=
  match b.chainDue (fired + b.delay) s.time.count with
  | (some due, flags) => (flags, s.move t (b.chainArmed due))
  | (none, flags) => (flags, s)

/-- Stage 4 of a firing (R36): a target that is ARMED or HELD is not changed and sets CHAIN_BUSY. -/
def State.stage4 (s : State) (chain : Option EntryId) (fired : Word) : EntryFlags × State :=
  match chain with
  | none => ({}, s)
  | some t =>
    match s.entry t with
    | none => ({}, s)
    | some b =>
      match b.state with
      | .idle => s.chainTry t b fired
      | .parked => s.chainTry t b fired
      | .armed _ => ({ chainBusy := true }, s)
      | .held _ => ({ chainBusy := true }, s)

/-! ### The firing (R28, R30) -/

/-- The four stages of the firing of an entry with a given record and due; the notice is decided when stage 4 ends. -/
def State.fireEntry (s : State) (e : EntryId) (a : Entry) (due : Word) : State :=
  let limit := (s.lines.deliver a.action).1
  let s1 := { s.unlist e with lines := (s.lines.deliver a.action).2 }
  let r := a.stage3 limit due s.time.count
  let s3 := s1.place e r.record
  let chained := s3.stage4 r.record.chain due
  let flags := (({ late := decide (difference due s.time.count < 0) } : EntryFlags).union r.flags).union chained.1
  if a.notify || r.forced then chained.2.post a.owner e a.tag flags due else chained.2

/-- The head of the due list and its record and due, when the part is running, not frozen, and the head is due (R28). -/
def State.dueHead (s : State) : Option (EntryId × Entry × Word) :=
  if s.running && !s.time.frozen then
    match s.dueList with
    | [] => none
    | e :: _ =>
      match s.entry e with
      | none => none
      | some a =>
        match a.state with
        | .armed due => if difference due s.time.count ≤ 0 then some (e, a, due) else none
        | _ => none
  else none

/-- FIRE (R28). With no due head, or while frozen, the engine fires nothing (log 2). A marker request that the firing
raises on a ready line begins its transmission (R171). -/
def execFire (s : State) : Host.Outcome State Fault Refusal :=
  match s.dueHead with
  | some (e, a, due) => .next (s.fireEntry e a due).settleLink
  | none => .next s

end Sys2Proof.Machine
end

