-- ==== Sys2Proof/Machine/Lines.lean ====
section
/-!
DEFINITION. The line and group commands of chapter 3: CLAIM, RELEASE, SET_LINES, GROUP_MODE, LOAD_PHASES, SET_GROUP,
SET_LIMITS and READ_LINES.
-/
namespace Sys2Proof.Machine

/-! ### CLAIM and RELEASE (R57, R58) -/

/-- Every line of the mask satisfies the test on its claim. -/
def LineUnit.allLines (u : LineUnit) (mask : BitVec 16) (test : Option Port → Bool) : Bool :=
  (List.finRange 16).all fun l => !mask.getLsbD l.val || test (u.lineClaims.get l)

/-- Every trigger of the mask satisfies the test on its claim. -/
def LineUnit.allTriggers (u : LineUnit) (mask : BitVec 8) (test : Option Port → Bool) : Bool :=
  (List.finRange 8).all fun t => !mask.getLsbD t.val || test (u.triggerClaims.get t)

/-- The unit with the lines and triggers of the masks claimed by a port (R57). -/
def LineUnit.claim (u : LineUnit) (p : Port) (lines : BitVec 16) (triggers : BitVec 8) : LineUnit :=
  { u with
    lineClaims := Vector.ofFn fun l : Fin 16 => if lines.getLsbD l.val then some p else u.lineClaims.get l
    triggerClaims := Vector.ofFn fun t : Fin 8 => if triggers.getLsbD t.val then some p else u.triggerClaims.get t }

/-- CLAIM after stages 1 to 3: all or nothing (R57). -/
def runClaim (p : Port) (body : List Byte) (s : State) : Answer :=
  withBody readMasksBody body s fun (lines, triggers) =>
    if s.lines.allLines lines (· != some p.other) && s.lines.allTriggers triggers (· != some p.other) then
      Answer.ok [] { s with lines := s.lines.claim p lines triggers }
    else Answer.refuse .claimed s

/-- CLAIM (R57). -/
def execClaim (c : Cmd) (s : State) : Host.Outcome State Fault Refusal :=
  .next (takeCommand 0x30 (exactly 3) .either runClaim c s)

/-- An action needs a line of the mask: it names the line, or a group that contains it (R58). -/
def actionNeedsLine (a : Action) (mask : BitVec 16) : Bool :=
  (List.finRange 16).any fun l =>
    mask.getLsbD l.val && (a.lineTarget == some l || a.group == some (groupOf l))

/-- A record needs a line or trigger of the masks: by its action, its staged action, or its trigger (R58). -/
def Entry.needs (a : Entry) (lines : BitVec 16) (triggers : BitVec 8) : Bool :=
  actionNeedsLine a.action lines || actionNeedsLine (a.staged.action.getD .none) lines ||
    (match a.trigger with
      | some t => triggers.getLsbD t.val
      | none => false)

/-- Some allocated entry satisfies the test. -/
def State.anyEntry (s : State) (test : Entry → Bool) : Bool :=
  s.entries.toList.any fun
    | some a => test a
    | none => false

/-- Some trigger of the mask has parked entries (R58). -/
def State.anyParked (s : State) (triggers : BitVec 8) : Bool :=
  (List.finRange 8).any fun t => triggers.getLsbD t.val && !(s.triggers.get t).park.isEmpty

/-- RELEASE after stages 1 to 3: NOT_CLAIMED, then IN_USE for a need, then IN_USE for a park list (R58). -/
def runRelease (p : Port) (body : List Byte) (s : State) : Answer :=
  withBody readMasksBody body s fun (lines, triggers) =>
    if !(s.lines.allLines lines (· == some p) && s.lines.allTriggers triggers (· == some p)) then
      Answer.refuse .notClaimed s
    else if s.anyEntry fun a => a.owner == p && a.needs lines triggers then Answer.refuse .inUse s
    else if s.anyParked triggers then Answer.refuse .inUse s
    else Answer.ok [] (s.releaseClaims lines triggers)

/-- RELEASE (R58). -/
def execRelease (c : Cmd) (s : State) : Host.Outcome State Fault Refusal :=
  .next (takeCommand 0x31 (exactly 3) .either runRelease c s)

/-! ### SET_LINES (R66) -/

/-- Some line of the mask belongs to a group in SEQUENCE mode (R66). -/
def LineUnit.anySequence (u : LineUnit) (mask : BitVec 16) : Bool :=
  (List.finRange 16).any fun l => mask.getLsbD l.val && (u.groups.get (groupOf l)).mode == .sequence

/-- The unit with level and drive of the masked lines written (R66). -/
def LineUnit.write (u : LineUnit) (w : LineWrite) : LineUnit :=
  { u with levels := (u.levels &&& ~~~w.mask) ||| (w.levels &&& w.mask)
           drives := (u.drives &&& ~~~w.mask) ||| (w.drives &&& w.mask) }

/-- SET_LINES after stages 1 to 3 (R66). -/
def runSetLines (p : Port) (body : List Byte) (s : State) : Answer :=
  withBody readSetLinesBody body s fun w =>
    if s.lines.anySequence w.mask then Answer.refuse .state s
    else if !s.lines.allLines w.mask (· == some p) then Answer.refuse .notClaimed s
    else Answer.ok [] { s with lines := s.lines.write w }

/-- SET_LINES (R66). -/
def execSetLines (c : Cmd) (s : State) : Host.Outcome State Fault Refusal :=
  .next (takeCommand 0x32 (exactly 6) .either runSetLines c s)

/-! ### GROUP_MODE (R61, R62) -/

/-- An action bars a change of a group to a mode: a line action in the group bars SEQUENCE, a group action on the group
bars LINES (R61, R62). -/
def actionBars (a : Action) (g : Fin 4) (m : GroupMode) : Bool :=
  match m with
  | .sequence => a.lineTarget.map groupOf == some g
  | .lines => a.group == some g

/-- A record bars the change by its action or its staged action (R61, R62). -/
def Entry.bars (a : Entry) (g : Fin 4) (m : GroupMode) : Bool :=
  actionBars a.action g m || actionBars (a.staged.action.getD .none) g m

/-- GROUP_MODE after stages 1 to 3 (R61, R62). -/
def runGroupMode (p : Port) (body : List Byte) (s : State) : Answer :=
  withBody readGroupModeBody body s fun (g, m) =>
    if !s.lines.claimsGroup p g then Answer.refuse .notClaimed s
    else if s.anyEntry fun a => a.bars g m then Answer.refuse .inUse s
    else Answer.ok [] { s with lines := s.lines.putGroup g { s.lines.groups.get g with mode := m } }

/-- GROUP_MODE (R61). -/
def execGroupMode (c : Cmd) (s : State) : Host.Outcome State Fault Refusal :=
  .next (takeCommand 0x33 (exactly 2) .either runGroupMode c s)

/-! ### LOAD_PHASES, SET_GROUP, SET_LIMITS (R67, R68, R69) -/

/-- LOAD_PHASES after stages 1 to 3 (R67). -/
def runLoadPhases (p : Port) (body : List Byte) (s : State) : Answer :=
  withBody readLoadPhasesBody body s fun (g, table) =>
    if !s.lines.claimsGroup p g then Answer.refuse .notClaimed s
    else Answer.ok [] { s with lines := s.lines.putGroup g { s.lines.groups.get g with table := table } }

/-- LOAD_PHASES (R67). -/
def execLoadPhases (c : Cmd) (s : State) : Host.Outcome State Fault Refusal :=
  .next (takeCommand 0x34 (exactly 9) .either runLoadPhases c s)

/-- A group with the values present replaced (R68). -/
def Group.write (g : Group) (w : GroupWrite) : Group :=
  { g with index := w.index.getD g.index, position := w.position.getD g.position, step := w.step.getD g.step }

/-- The position, if one is written, lies within the limits (R68). -/
def positionAllowed (limits : Option Limits) (position : Option Word) : Bool :=
  match position with
  | some x => withinLimits limits x
  | none => true

/-- SET_GROUP after stages 1 to 3; an index moves the levels of a SEQUENCE group (R68). -/
def runSetGroup (p : Port) (body : List Byte) (s : State) : Answer :=
  withBody readSetGroupBody body s fun (g, w) =>
    if !s.lines.claimsGroup p g then Answer.refuse .notClaimed s
    else if !positionAllowed (s.lines.groups.get g).limits w.position then Answer.refuse .range s
    else
      Answer.ok []
        { s with
          lines :=
            if w.index.isSome then s.lines.putGroup g ((s.lines.groups.get g).write w)
            else s.lines.setGroup g ((s.lines.groups.get g).write w) }

/-- SET_GROUP (R68). -/
def execSetGroup (c : Cmd) (s : State) : Host.Outcome State Fault Refusal :=
  .next (takeCommand 0x35 (exactly 8) .either runSetGroup c s)

/-- SET_LIMITS after stages 1 to 3 (R69). -/
def runSetLimits (p : Port) (body : List Byte) (s : State) : Answer :=
  withBody readSetLimitsBody body s fun (g, limits) =>
    if !s.lines.claimsGroup p g then Answer.refuse .notClaimed s
    else if !withinLimits limits (s.lines.groups.get g).position then Answer.refuse .range s
    else Answer.ok [] { s with lines := s.lines.setGroup g { s.lines.groups.get g with limits := limits } }

/-- SET_LIMITS (R69). -/
def execSetLimits (c : Cmd) (s : State) : Host.Outcome State Fault Refusal :=
  .next (takeCommand 0x36 (exactly 10) .either runSetLimits c s)

/-! ### READ_LINES (R70, R185) -/

/-- A group summary byte (Table 10.18). -/
def groupSummary (g : Group) : Byte :=
  bitAt (decide (g.mode = .sequence)) 0 ||| bitAt (decide (g.step = .two)) 1 ||| bitAt g.limits.isSome 2 |||
    (g.index.setWidth 8 <<< 4)

/-- Claims packed two bits each, four to a byte (Table 10.18). -/
def claimBytes : List (Option Port) → List Byte
  | a :: b :: c :: d :: rest =>
    BitVec.ofNat 8 (claimNat a + 4 * claimNat b + 16 * claimNat c + 64 * claimNat d) :: claimBytes rest
  | _ => []

/-- The line record (Table 10.18). -/
def lineRecord (u : LineUnit) : List Byte :=
  bytes16 u.levels ++ bytes16 u.drives ++ claimBytes u.lineClaims.toList ++ claimBytes u.triggerClaims.toList ++
    u.groups.toList.map groupSummary

/-- Two patterns in one byte, the even index in the low four bits (Table 10.18). -/
def patternBytes : List (BitVec 4) → List Byte
  | a :: b :: rest => (b ++ a) :: patternBytes rest
  | _ => []

/-- The record of one group (Table 10.18). -/
def groupRecord (u : LineUnit) (g : Fin 4) : List Byte :=
  let group := u.groups.get g
  [BitVec.ofNat 8 g.val, groupSummary group] ++ patternBytes group.table.toList ++ bytes32 group.position ++
    (match group.limits with
      | some m => bytes32 m.min ++ bytes32 m.max
      | none => bytes32 0 ++ bytes32 0)

/-- READ_LINES after stages 1 to 3 (R70, R185). -/
def runReadLines (_p : Port) (body : List Byte) (s : State) : Answer :=
  withBody readReadLinesBody body s fun
    | none => Answer.ok (lineRecord s.lines) s
    | some g => Answer.ok (groupRecord s.lines g) s

/-- READ_LINES (R70, R185). -/
def execReadLines (c : Cmd) (s : State) : Host.Outcome State Fault Refusal :=
  .next (takeCommand 0x37 (fun n => n == 0 || n == 1) .either runReadLines c s)

end Sys2Proof.Machine
end

