-- ==== Sys2Proof/Machine/Notices.lean ====
section
/-!
DEFINITION. The notice commands of chapter 5: TAKE and NOTICE_CONFIG.
-/
namespace Sys2Proof.Machine

/-! ### TAKE (R94, R95, R98) -/

/-- The response body of a TAKE: the count and the notice records, head first (R94). -/
def takeBody (items : List NoticeItem) : List Byte := BitVec.ofNat 8 items.length :: items.flatMap noticeRecord

/-- The unit after a TAKE from a port: a link TAKE that leaves items behind raises the marker request (R98 case 2). -/
def NoticeUnit.afterTake (n : NoticeUnit) (p : Port) : NoticeUnit :=
  match p with
  | .spi => n
  | .link => { n with marker := n.marker || (!n.queues.link.isEmpty && n.signalling.link) }

/-- A TAKE from a port does not consume: the part is frozen and the port's consume-in-freeze is off (R95). -/
def State.takeKeeps (s : State) (p : Port) : Bool := s.time.frozen && !s.notices.consume.get p

/-- TAKE after stages 1 to 3 (R94, R95). -/
def runTake (p : Port) (body : List Byte) (s : State) : Answer :=
  withBody readTakeBody body s fun k =>
    if s.takeKeeps p then
      { Answer.ok (takeBody ((s.notices.queues.get p).take k)) { s with notices := s.notices.afterTake p } with
        notConsumed := true }
    else
      Answer.ok (takeBody ((s.notices.queues.get p).take k))
        { s with notices := (s.notices.setQueue p ((s.notices.queues.get p).drop k)).afterTake p }

/-- TAKE (R94). -/
def execTake (c : Cmd) (s : State) : Host.Outcome State Fault Refusal :=
  .next (takeCommand 0x20 (exactly 1) .either runTake c s)

/-! ### NOTICE_CONFIG (R96, R98, R99) -/

/-- The unit with a port's two settings. Turning link signalling on while the link queue is non-empty raises the marker
request (R98 case 3), turning it off withdraws it (R99). -/
def NoticeUnit.configure (n : NoticeUnit) (p : Port) (signalling consume : Bool) : NoticeUnit :=
  { n with
    signalling := n.signalling.set p signalling
    consume := n.consume.set p consume
    marker :=
      match p with
      | .spi => n.marker
      | .link => signalling && (n.marker || (!n.signalling.link && !n.queues.link.isEmpty)) }

/-- NOTICE_CONFIG after stages 1 to 3 (R96). -/
def runNoticeConfig (p : Port) (body : List Byte) (s : State) : Answer :=
  withBody readNoticeConfigBody body s fun (signalling, consume) =>
    Answer.ok [] { s with notices := s.notices.configure p signalling consume }

/-- NOTICE_CONFIG (R96). -/
def execNoticeConfig (c : Cmd) (s : State) : Host.Outcome State Fault Refusal :=
  .next (takeCommand 0x21 (exactly 2) .either runNoticeConfig c s)

end Sys2Proof.Machine
end

