-- ==== Sys2Proof/Machine/Resets.lean ====
section
/-!
DEFINITION. The resets of section 7.8: power-on, the NRESET pin and its release, the first levels, and the command
reset that RESET_PART performs.
-/
namespace Sys2Proof.Machine

/-- The values that every kind of reset leaves, at a link port and a reset cause; the sampled levels and the level of
SEL are kept (R142, R143, Table 7.3). -/
def State.resetBlocks (s : State) (cause : ResetCause) (link : LinkPort) : State :=
  { s with
    entries := Vector.replicate 256 none
    quotas := ⟨Config.spiQuota, Config.linkQuota⟩
    dueList := []
    armedPast := Vector.replicate 256 0
    lines := LineUnit.initial
    triggers := s.triggers.map fun t => Trigger.initial t.level t.sample
    notices := NoticeUnit.initial
    time := TimeBase.initial s.time.freezePin s.time.freezeSample
    ctl := Controller.initial cause
    spi := SpiPort.initial s.spi.selLow
    link := link }

/-- A command reset: the link address, D, G and Q are kept and sampling continues without a break (R143, R179); an SPI
transaction that is open after these bits on SDI is cut, and shifts out the rest of its status byte and zeros (R158). -/
def State.commandReset (s : State) (sdi : List Bool) : State :=
  let t := s.resetBlocks .command
    { LinkPort.initial s.link.address s.link.settings with divider := s.link.divider }
  { t with spi := { t.spi with cut := s.spi.cutAfter sdi } }

/-- The link port at the straps: address and D from them, G 40 and Q 4 (R160, R163, R178). -/
def LinkPort.strapped (adr : BitVec 4) (lspd : BitVec 2) : LinkPort :=
  LinkPort.initial (Config.strapAddress adr)
    { d := Config.strapDivisor lspd, g := Config.gapLimit, q := Config.responseGap }

/-- POWER_ON_RESET: every block takes its reset values with cause POWER_ON, and the straps are read; the part then waits
for the release of NRESET if that is low, or else for the first levels (R140, R144; log 14). -/
def execPowerOnReset (adr : BitVec 4) (lspd : BitVec 2) (nresetLow : Bool) (s : State) :
    Host.Outcome State Fault Refusal :=
  .next { s.resetBlocks .powerOn (LinkPort.strapped adr lspd) with phase := if nresetLow then .held else .settling }

/-- NRESET_ASSERT: a pin reset, held while NRESET stays low; the address and D wait for the straps (R144; log 13). -/
def execNresetAssert (s : State) : Host.Outcome State Fault Refusal :=
  if s.phase = .held then .next s
  else
    .next { s.resetBlocks .pin (LinkPort.initial s.link.address
      { d := s.link.settings.d, g := Config.gapLimit, q := Config.responseGap }) with phase := .held }

/-- NRESET_RELEASE: the straps are sampled, and the part waits for the first levels (R144, R160, R163). -/
def execNresetRelease (adr : BitVec 4) (lspd : BitVec 2) (s : State) : Host.Outcome State Fault Refusal :=
  if s.phase = .held then .next { s with phase := .settling, link := LinkPort.strapped adr lspd } else .next s

/-- The level of an input as the two-sample filter last passed it: what the last two successive samples that agree show;
none before two successive samples agree (R73, R89; log 24). -/
def passedLevel : List Bool → Option Bool
  | a :: b :: rest =>
    match passedLevel (b :: rest) with
    | some level => some level
    | none => if a = b then some a else none
  | _ => none

/-- The samples of one trigger input. -/
def samplesOf (samples : List InputSample) (t : Fin 8) : List Bool := samples.map (·.trigger t)

/-- The filter has passed a first level for every trigger input and for the FREEZE pin (R144). -/
def allPassed (samples : List InputSample) : Bool :=
  (List.finRange 8).all (fun t => (passedLevel (samplesOf samples t)).isSome) &&
    (passedLevel (samples.map (·.freezePin))).isSome

/-- FIRST_LEVEL_PASSED: at the last of these samples the filter has passed a first level for all nine inputs, and not
before. The sampled levels are taken, which makes no edge, and the part begins to take commands and events (R89, R121,
R144). Other samples do not make this event (log 2). -/
def execFirstLevelPassed (samples : List InputSample) (s : State) : Host.Outcome State Fault Refusal :=
  if s.phase = .settling ∧ allPassed samples = true ∧ allPassed samples.dropLast = false then
    .next { s with
      phase := .running
      triggers := Vector.ofFn fun t : Fin 8 =>
        { s.triggers.get t with
          level := (passedLevel (samplesOf samples t)).getD (s.triggers.get t).level
          sample := (samplesOf samples t).getLastD (s.triggers.get t).sample }
      time := { s.time with
        freezePin := (passedLevel (samples.map (·.freezePin))).getD s.time.freezePin
        freezeSample := (samples.map (·.freezePin)).getLastD s.time.freezeSample } }
  else .next s

end Sys2Proof.Machine
end

