-- ==== Sys2Proof/WellFormed.lean ====
section
/-!
DEFINITION. Which commands and events can come from outside at all: a body no longer than a frame holds, an UNKNOWN
whose code names no command, a reference clock within its range, and as many samples as a character or a false start
has.
-/
namespace Sys2Proof

/-- The CODE values of the part (Table 10.10). -/
def knownCodes : List Byte :=
  [0x01, 0x02, 0x03, 0x04, 0x05, 0x06,
   0x10, 0x11, 0x12, 0x13, 0x14, 0x15, 0x16, 0x17, 0x18, 0x19, 0x1A, 0x1B, 0x1C, 0x1D,
   0x20, 0x21,
   0x30, 0x31, 0x32, 0x33, 0x34, 0x35, 0x36, 0x37,
   0x40, 0x41,
   0x50, 0x51, 0x52, 0x53, 0x54, 0x55, 0x56, 0x57,
   0x60, 0x61]

/-- A command body is at most 44 bytes long (Table 10.7). -/
def Cmd.wf (c : Cmd) : Bool := decide (c.body.length ≤ Config.bodyBytes)

/-- What can come from outside. -/
def Instr.wf : Instr → Bool
  | .echo c => c.wf
  | .status c => c.wf
  | .quota c => c.wf
  | .resetPart c _ => c.wf
  | .evict c => c.wf
  | .leave c => c.wf
  | .alloc c => c.wf
  | .retire c => c.wf
  | .config c => c.wf
  | .stage c => c.wf
  | .armAt c => c.wf
  | .armIn c => c.wf
  | .armOn c => c.wf
  | .disarm c => c.wf
  | .suspend c => c.wf
  | .resume c => c.wf
  | .retime c => c.wf
  | .nudge c => c.wf
  | .look c => c.wf
  | .give c => c.wf
  | .takeNotices c => c.wf
  | .noticeConfig c => c.wf
  | .claim c => c.wf
  | .release c => c.wf
  | .setLines c => c.wf
  | .groupMode c => c.wf
  | .loadPhases c => c.wf
  | .setGroup c => c.wf
  | .setLimits c => c.wf
  | .readLines c => c.wf
  | .triggerConfig c => c.wf
  | .readTrigger c => c.wf
  | .readTime c => c.wf
  | .setTime c => c.wf
  | .synthSet c => c.wf
  | .synthOn c => c.wf
  | .synthOff c => c.wf
  | .selectSource c => c.wf
  | .prescale c => c.wf
  | .freeze c => c.wf
  | .linkConfig c => c.wf
  | .linkStatus c => c.wf
  | .unknown code c => c.wf && !knownCodes.contains code
  | .fire => true
  | .tick _ => true
  | .triggerEdge _ _ => true
  | .lockGained fRef => decide (1000000 ≤ fRef) && decide (fRef ≤ 25000000)
  | .lockLost => true
  | .changeoverComplete => true
  | .freezePinChange _ => true
  | .powerOnReset _ _ _ => true
  | .nresetAssert => true
  | .nresetRelease _ _ => true
  | .firstLevelPassed _ => true
  | .selFall => true
  | .commandTransaction sdi => decide (8 ≤ sdi.length)
  | .fetchTransaction sdi => decide (8 ≤ sdi.length)
  | .pollTransaction sdi => decide (8 ≤ sdi.length)
  | .unknownKindTransaction sdi => decide (8 ≤ sdi.length)
  | .transactionWithoutKind sdi => decide (sdi.length < 8)
  | .characterComplete rxd => rxd.length == Config.characterSamples
  | .gap _ => true
  | .transmissionBegin _ => true
  | .transmissionEnd _ => true
  | .pendingSettingsInForce => true
  | .startBit _ => true
  | .falseStart rxd => rxd.length == Config.falseStartSamples

end Sys2Proof
end

