-- ==== Sys2Proof/Machine/Part.lean ====
section
/-!
DEFINITION. The part-level commands of chapter 7: ECHO, STATUS, RESET_PART, and the take of a command whose CODE names
no command.
-/
namespace Sys2Proof.Machine

/-! ### ECHO (R138) -/

/-- ECHO after stages 1 to 3 (R138). -/
def runEcho (_p : Port) (body : List Byte) (s : State) : Answer := Answer.ok body s

/-- ECHO (R138): any body of 0 to 42 bytes. -/
def execEcho (c : Cmd) (s : State) : Host.Outcome State Fault Refusal :=
  .next (takeCommand 0x01 (fun n => decide (n ≤ 42)) .either runEcho c s)

/-! ### STATUS (R139) -/

/-- The STATUS record (Table 10.15). -/
def statusRecord (s : State) : List Byte :=
  [causeByte s.ctl.resetCause, timeSummary s.time ||| bitAt s.time.frozen 5] ++ bytesCount s.freeCount ++
    bytesCount (s.ownedCount .spi) ++ bytesCount (s.ownedCount .link) ++ bytesCount s.quotas.spi ++
    bytesCount s.quotas.link ++ [s.link.address.setWidth 8]

/-- STATUS after stages 1 to 3: from SPI it sets the reset cause to NONE (R139). -/
def runStatus (p : Port) (_body : List Byte) (s : State) : Answer :=
  Answer.ok (statusRecord s)
    (match p with
      | .spi => { s with ctl := { s.ctl with resetCause := .none } }
      | .link => s)

/-- STATUS (R139). -/
def execStatus (c : Cmd) (s : State) : Host.Outcome State Fault Refusal :=
  .next (takeCommand 0x02 (exactly 0) .either runStatus c s)

/-! ### RESET_PART (R141) -/

/-- RESET_PART after stages 1 to 3: a command reset; FLAGS bit 0 of its response says that the reset discarded an
uncollected SPI response (R141). -/
def runResetPart (sdi : List Bool) (_p : Port) (_body : List Byte) (s : State) : Answer :=
  { Answer.ok [] (s.commandReset sdi) with overwrote := s.ctl.responses.spi.isSome }

/-- RESET_PART (R141), with the bits that an open SPI transaction has read on SDI up to it (R158). -/
def execResetPart (c : Cmd) (sdi : List Bool) (s : State) : Host.Outcome State Fault Refusal :=
  .next (takeCommand 0x04 (exactly 0) .spiOnly (runResetPart sdi) c s)

/-! ### A CODE that names no command (R132) -/

/-- The take of a command whose CODE names no command, refused with UNKNOWN whatever its length (R132). For a CODE that
names a command this event does not arise (log 2). -/
def execUnknown (code : Byte) (c : Cmd) (s : State) : Host.Outcome State Fault Refusal :=
  if knownCodes.contains code then .next s
  else .next (takeCommand code (fun _ => true) .either (fun _ _ s => Answer.refuse .unknown s) c s)

end Sys2Proof.Machine
end

