-- ==== Sys2Proof/Machine/Spi.lean ====
section
/-!
DEFINITION. The SPI command port of chapter 8: a transaction opens at the fall of SEL and is judged at its rise.
-/
namespace Sys2Proof.Machine

/-! ### The fall of SEL (R147, R149) -/

/-- The status byte (R149, Table 10.4). -/
def statusByte (s : State) : Byte :=
  bitAt s.ctl.commands.spi.isSome 7 ||| bitAt s.ctl.responses.spi.isSome 6 |||
    bitAt (!s.notices.queues.spi.isEmpty) 5 ||| bitAt (decide (s.ctl.resetCause ≠ .none)) 4 |||
    spiResultByte s.spi.lastResult

/-- SEL_FALL: while the part is running a transaction opens with its two snapshots (R147); while it is not, only the
level of SEL is followed, so that a first transaction waits for a later fall (R159). -/
def execSelFall (s : State) : Host.Outcome State Fault Refusal :=
  if s.spi.selLow then .next s
  else if s.running then
    .next { s with
      spi := { s.spi with
        selLow := true
        transaction := some { kind := none, status := statusByte s, copy := s.ctl.responses.spi, placed := false } } }
  else .next { s with spi := { s.spi with selLow := true } }

/-! ### The rise of SEL -/

/-- The kind byte names a kind (R148). -/
def SpiPort.setKind (p : SpiPort) (kind : SpiKind) : SpiPort :=
  { p with transaction := p.transaction.map fun t => { t with kind := some kind } }

/-- The end of a transaction at the rise of SEL, after these bits on SDI: snapshots discarded, receive buffer emptied,
and the bits it shifted out recorded, one for each rising edge of SCK (R146, R147, R151, log 15). -/
def SpiPort.close (p : SpiPort) (sdi : List Bool) : SpiPort :=
  { p with
    selLow := false, transaction := none, cut := none, buffer := [], bufferCount := 0
    sdo := padded (p.outBits sdi) sdi.length }

/-- The rise of SEL with no transaction open: nothing is judged. One that a RESET_PART cut has shifted out the rest of
its status byte and zeros (R158); a low SEL at which none opened has shifted out nothing (R159, log 17). -/
def State.riseUnopened (s : State) (sdi : List Bool) : State :=
  if s.spi.cut.isSome then { s with spi := s.spi.close sdi } else { s with spi := { s.spi with selLow := false } }

/-- The rise of SEL that ends a transaction of the kind a row names, with that row's judgement. A row whose kind the
bits on SDI do not select does not arise (R148, log 2). -/
def State.riseAs (s : State) (kind : Option SpiKind) (sdi : List Bool) (judge : Transaction → State) : State :=
  match s.spi.transaction with
  | some t => if kindAfter sdi = kind then judge t else s
  | none => s.riseUnopened sdi

/-! ### COMMAND (R151) -/

/-- The frame bytes reach the receive buffer: the first 48 are kept and all are counted (R151). -/
def SpiPort.receive (p : SpiPort) (bytes : List Byte) : SpiPort :=
  { p with buffer := bytes.take Config.frameBytes, bufferCount := bytes.length }

/-- The judgement of the received frame (R151). -/
def judgeCommand (p : SpiPort) (partly occupied : Bool) : SpiResult :=
  match p.buffer with
  | [] => .length
  | len :: _ =>
    if partly || !lenOk len || p.bufferCount != len.toNat + 1 then .length
    else if !checkOk p.buffer then .check
    else if occupied then .busy
    else .accepted

/-- The SPI command slot after a judgement: an accepted frame enters it (R151). -/
def acceptedSlot (result : SpiResult) (buffer : List Byte) (slot : Option CommandFrame) : Option CommandFrame :=
  if result = .accepted then frameCommand buffer false else slot

/-- The part after the judgement of a COMMAND (R151). -/
def State.judgeFrame (s : State) (sdi : List Bool) : State :=
  let port := (s.spi.setKind .command).receive (dataBytes sdi)
  let result := judgeCommand port (partlyReceived sdi) s.ctl.commands.spi.isSome
  { s with
    ctl := { s.ctl with commands := s.ctl.commands.set .spi (acceptedSlot result port.buffer s.ctl.commands.spi) }
    spi := { port.close sdi with lastResult := result } }

/-- COMMAND_TRANSACTION (R151). -/
def execCommandTransaction (sdi : List Bool) (s : State) : Host.Outcome State Fault Refusal :=
  .next (s.riseAs (some .command) sdi fun _ => s.judgeFrame sdi)

/-! ### FETCH (R152, R153) -/

/-- The copied response was shifted out whole, and no response was placed since SEL fell (R153). -/
def Transaction.collected (t : Transaction) (r : Response) (count : Nat) : Bool :=
  decide ((responseBytes r).length ≤ count) && !t.placed

/-- The part after the judgement of a FETCH (R153). -/
def State.judgeFetch (s : State) (sdi : List Bool) (t : Transaction) : State :=
  let closed := (s.spi.setKind .fetch).close sdi
  match t.copy with
  | some r =>
    if t.collected r (dataBytes sdi).length then
      { s with
        ctl := { s.ctl with responses := s.ctl.responses.set .spi none }
        spi := { closed with lastResult := .collected } }
    else { s with spi := { closed with lastResult := .kept } }
  | none => { s with spi := closed }

/-- FETCH_TRANSACTION (R153). -/
def execFetchTransaction (sdi : List Bool) (s : State) : Host.Outcome State Fault Refusal :=
  .next (s.riseAs (some .fetch) sdi (s.judgeFetch sdi))

/-! ### POLL, an unknown kind, and no kind (R146, R148, R154) -/

/-- POLL_TRANSACTION (R154). -/
def execPollTransaction (sdi : List Bool) (s : State) : Host.Outcome State Fault Refusal :=
  .next (s.riseAs (some .poll) sdi fun _ => { s with spi := (s.spi.setKind .poll).close sdi })

/-- UNKNOWN_KIND_TRANSACTION (R148). -/
def execUnknownKindTransaction (sdi : List Bool) (s : State) : Host.Outcome State Fault Refusal :=
  .next (s.riseAs (some .unknown) sdi fun _ =>
    { s with spi := { (s.spi.setKind .unknown).close sdi with lastResult := .kind } })

/-- TRANSACTION_WITHOUT_KIND: SEL rises before the kind byte is complete; of the status byte, as many bits were shifted
out as SCK had rising edges (R146, R149). -/
def execTransactionWithoutKind (sdi : List Bool) (s : State) : Host.Outcome State Fault Refusal :=
  .next (s.riseAs none sdi fun _ => { s with spi := s.spi.close sdi })

end Sys2Proof.Machine
end

