-- ==== Sys2Proof/Machine/Table.lean ====
section
/-!
DEFINITION. The entry table commands of chapter 1: ALLOC, QUOTA, CONFIG, LOOK, RETIRE, GIVE, EVICT and LEAVE.
-/
namespace Sys2Proof.Machine

/-! ### QUOTA (R13) -/

/-- QUOTA after stages 1 to 3 (R13). -/
def runQuota (_p : Port) (body : List Byte) (s : State) : Answer :=
  withBody readQuotaBody body s fun (port, quota) =>
    if quota < s.ownedCount port then Answer.refuse .inUse s
    else Answer.ok [] { s with quotas := s.quotas.set port quota }

/-- QUOTA (R13). -/
def execQuota (c : Cmd) (s : State) : Host.Outcome State Fault Refusal :=
  .next (takeCommand 0x03 (exactly 3) .spiOnly runQuota c s)

/-! ### ALLOC (R10, R12) -/

/-- The allocation of a FREE entry to a port (R10, R12). -/
def allocate (p : Port) (e : EntryId) (s : State) : Answer :=
  Answer.ok [entryByte e] (s.setEntry e (some (Entry.initial p)))

/-- ALLOC after stages 1 to 3: the resource checks QUOTA, FULL and IN_USE in that order (R12). -/
def runAlloc (p : Port) (body : List Byte) (s : State) : Answer :=
  if s.quotas.get p ≤ s.ownedCount p then Answer.refuse .quota s
  else
    match s.lowestFree, readEntryBody body with
    | none, _ => Answer.refuse .full s
    | some e, none => allocate p e s
    | some _, some e => if (s.entry e).isSome then Answer.refuse .inUse s else allocate p e s

/-- ALLOC (R12): an empty body or one byte. -/
def execAlloc (c : Cmd) (s : State) : Host.Outcome State Fault Refusal :=
  .next (takeCommand 0x10 (fun n => n == 0 || n == 1) .either runAlloc c s)

/-! ### RETIRE (R16, R17) -/

/-- One entry returned to the free set: out of its list, its item out of its owner's queue, every chain of the same
owner that names it cleared, its record discarded (R16, R17). -/
def State.retireEntry (s : State) (e : EntryId) (a : Entry) : State :=
  let s1 := s.unlist e
  let s2 := { s1 with
    notices := s1.notices.setQueue a.owner (withoutEntry e (s1.notices.queues.get a.owner)) }
  { s2 with
    entries := (s2.entries.map fun r => r.map fun b => if b.owner = a.owner then b.unchain e else b).set e.val none
      e.isLt }

/-- RETIRE after stages 1 to 3 (R16). -/
def runRetire (p : Port) (body : List Byte) (s : State) : Answer :=
  withBody readEntryBody body s fun e =>
    withOwned p e s fun a =>
      Answer.ok
        (match entryReport e (s.notices.queues.get a.owner) with
          | some r => bytes16 r.count ++ [entryFlagsByte r.flags]
          | none => [0, 0, 0])
        (s.retireEntry e a)

/-- RETIRE (R16). -/
def execRetire (c : Cmd) (s : State) : Host.Outcome State Fault Refusal :=
  .next (takeCommand 0x11 (exactly 1) .either runRetire c s)

/-! ### CONFIG (R14) -/

/-- The record with the whole configuration replaced; state, owner, left and the staged record are kept (R14). -/
def Entry.configure (a : Entry) (f : EntryConfig) : Entry :=
  { a with
    tag := f.tag, period := f.period, reps := f.reps, late := f.late, notify := f.notify, action := f.action,
    delay := f.delay, chain := f.chain, trigger := f.trigger, repark := f.repark }

/-- Stage 5 of CONFIG for the chain target: present and FREE is refused (R14). -/
def chainAllocated (s : State) (chain : Option EntryId) : Bool :=
  match chain with
  | some t => (s.entry t).isSome
  | none => true

/-- Stage 6 of CONFIG for the chain target: owned by the issuing port (R14). -/
def chainOwned (s : State) (p : Port) (chain : Option EntryId) : Bool :=
  match chain with
  | some t => ownedBy p (s.entry t)
  | none => true

/-- CONFIG after stages 1 to 3 (R14). -/
def runConfig (p : Port) (body : List Byte) (s : State) : Answer :=
  withBody readConfigBody body s fun (e, f) =>
    match s.entry e with
    | none => Answer.refuse .noEntry s
    | some a =>
      if !chainAllocated s f.chain then Answer.refuse .noEntry s
      else if a.owner ≠ p then Answer.refuse .notOwner s
      else if !chainOwned s p f.chain then Answer.refuse .notOwner s
      else if a.state ≠ .idle then Answer.refuse .state s
      else if !s.lines.modeAdmits f.action then Answer.refuse .state s
      else if !(s.lines.claimsAction p f.action && s.lines.claimsTrigger p f.trigger) then
        Answer.refuse .notClaimed s
      else Answer.ok [] (s.setEntry e (some (a.configure f)))

/-- CONFIG (R14). -/
def execConfig (c : Cmd) (s : State) : Host.Outcome State Fault Refusal :=
  .next (takeCommand 0x12 (exactly 19) .either runConfig c s)

/-! ### LOOK (R15) -/

/-- The options byte of LOOK (Table 10.11). -/
def optionsByte (a : Entry) : Byte :=
  lateByte a.late ||| bitAt a.notify 2 ||| bitAt a.repark 3 ||| bitAt a.chain.isSome 4 ||| bitAt a.trigger.isSome 5

/-- The time field of LOOK: the due when ARMED, the remaining distance when HELD, else 0 (R184). -/
def timeField : EntryState → Word
  | .idle => 0
  | .armed due => due
  | .parked => 0
  | .held remaining => remaining

/-- The LOOK record (Table 10.13). -/
def lookRecord (e : EntryId) (a : Entry) (item : Option EntryReport) : List Byte :=
  [entryByte e, stateByte a.state, portByte a.owner, optionsByte a] ++ bytes16 a.tag ++ bytes32 a.period ++
    bytes16 a.reps ++ bytes16 a.left ++ bytes32 a.delay ++ actionBytes a.action ++
    [match a.chain with
      | some t => entryByte t
      | none => 0,
     match a.trigger with
      | some t => BitVec.ofNat 8 t.val
      | none => 0] ++
    bytes32 (timeField a.state) ++
    [bitAt a.staged.period.isSome 0 ||| bitAt a.staged.action.isSome 1] ++
    bytes32 (a.staged.period.getD 0) ++ actionBytes (a.staged.action.getD .none) ++
    [bitAt item.isSome 0] ++
    bytes16 (match item with
      | some r => r.count
      | none => 0)

/-- LOOK after stages 1 to 3: the owner check does not apply (R15, R134). -/
def runLook (_p : Port) (body : List Byte) (s : State) : Answer :=
  withBody readEntryBody body s fun e =>
    match s.entry e with
    | some a => Answer.ok (lookRecord e a (entryReport e (s.notices.queues.get a.owner))) s
    | none => Answer.refuse .noEntry s

/-- LOOK (R15). -/
def execLook (c : Cmd) (s : State) : Host.Outcome State Fault Refusal :=
  .next (takeCommand 0x1C (exactly 1) .either runLook c s)

/-! ### GIVE (R18, R19) -/

/-- Some allocated entry's chain names the entry (R18). -/
def State.chainTarget (s : State) (e : EntryId) : Bool :=
  s.entries.toList.any fun
    | some a => a.chain == some e
    | none => false

/-- A port holds every claim a record needs: those of its action, its staged action and its trigger (R18). -/
def LineUnit.claimsEntry (u : LineUnit) (p : Port) (a : Entry) : Bool :=
  u.claimsAction p a.action && u.claimsAction p (a.staged.action.getD .none) && u.claimsTrigger p a.trigger

/-- An entry's item, if one stands in the giver's queue, at the tail of the receiver's queue (R19). The model's choice (log
28): the item keeps the tag it was posted with, although R100 also says that a given item's tag is the entry's, which a
CONFIG may have changed since the posting. -/
def NoticeUnit.moveItem (n : NoticeUnit) (e : EntryId) (giver : Port) : NoticeUnit :=
  match entryReport e (n.queues.get giver) with
  | some r =>
    (n.setQueue giver (withoutEntry e (n.queues.get giver))).setQueue giver.other
      (n.queues.get giver.other ++ [.entry e r])
  | none => n

/-- GIVE after stages 1 to 3 (R18, R19). -/
def runGive (p : Port) (body : List Byte) (s : State) : Answer :=
  withBody readEntryBody body s fun e =>
    withOwned p e s fun a =>
      if s.quotas.get p.other ≤ s.ownedCount p.other then Answer.refuse .quota s
      else if a.chain.isSome || s.chainTarget e then Answer.refuse .inUse s
      else if !s.lines.claimsEntry p.other a then Answer.refuse .notClaimed s
      else
        Answer.ok []
          { s.setEntry e (some { a with owner := p.other }) with notices := s.notices.moveItem e p }

/-- GIVE (R19). -/
def execGive (c : Cmd) (s : State) : Host.Outcome State Fault Refusal :=
  .next (takeCommand 0x1D (exactly 1) .either runGive c s)

/-! ### EVICT and LEAVE (R20, R21) -/

/-- The lines a port claims, as a mask. -/
def LineUnit.lineMask (u : LineUnit) (p : Port) : BitVec 16 :=
  (List.finRange 16).foldl
    (fun m l => if u.lineClaims.get l = some p then m ||| BitVec.twoPow 16 l.val else m) 0

/-- The triggers a port claims, as a mask. -/
def LineUnit.triggerMask (u : LineUnit) (p : Port) : BitVec 8 :=
  (List.finRange 8).foldl
    (fun m t => if u.triggerClaims.get t = some p then m ||| BitVec.twoPow 8 t.val else m) 0

/-- Every LINK entry retired: out of its list, its record discarded (R20 step 1). A chain that names a LINK entry
stands in a LINK entry and goes with it (R17). -/
def State.retireLink (s : State) : State :=
  { s with
    entries := s.entries.map fun r => if ownedBy .link r then none else r
    dueList := s.dueList.filter fun e => !ownedBy .link (s.entry e)
    triggers := s.triggers.map fun t => { t with park := t.park.filter fun e => !ownedBy .link (s.entry e) } }

/-- Steps 1 to 3 of EVICT: LINK entries retired, LINK claims released, the link queue emptied (R20, R21). -/
def State.clearLink (s : State) : State :=
  let s1 := s.retireLink
  let s2 := s1.releaseClaims (s1.lines.lineMask .link) (s1.lines.triggerMask .link)
  { s2 with notices := s2.notices.setQueue .link [] }

/-- Step 4 of EVICT: the waiting link command is discarded, and the waiting link response unless its transmission has
begun (R20). -/
def State.discardLinkSlots (s : State) : State :=
  { s with
    ctl := { s.ctl with
      commands := s.ctl.commands.set .link none
      responses := s.ctl.responses.set .link
        (match s.link.transmitter with
          | .sending .response _ _ => s.ctl.responses.link
          | .sending .marker _ _ => none
          | .quiet => none) } }

/-- EVICT after stages 1 to 3 (R20). -/
def runEvict (_p : Port) (body : List Byte) (s : State) : Answer :=
  withBody (fun
    | [b] => if b = portByte .link then some () else none
    | _ => none) body s fun _ =>
      Answer.ok (bytesCount (s.ownedCount .link)) s.clearLink.discardLinkSlots

/-- EVICT (R20). -/
def execEvict (c : Cmd) (s : State) : Host.Outcome State Fault Refusal :=
  .next (takeCommand 0x05 (exactly 1) .spiOnly runEvict c s)

/-- LEAVE after stages 1 to 3: steps 1 to 3 of EVICT; step 4 has nothing to discard (R21). -/
def runLeave (_p : Port) (_body : List Byte) (s : State) : Answer :=
  Answer.ok (bytesCount (s.ownedCount .link)) s.clearLink

/-- LEAVE (R21). -/
def execLeave (c : Cmd) (s : State) : Host.Outcome State Fault Refusal :=
  .next (takeCommand 0x06 (exactly 0) .linkOnly runLeave c s)

end Sys2Proof.Machine
end

