-- ==== Sys2Proof/Machine/Triggers.lean ====
section
/-!
DEFINITION. The trigger unit of chapter 4: edges and the arms they make, TRIGGER_CONFIG and READ_TRIGGER.
-/
namespace Sys2Proof.Machine

/-- The part with one trigger replaced. -/
def State.setTrigger (s : State) (t : Fin 8) (r : Trigger) : State :=
  { s with triggers := s.triggers.set t.val r t.isLt }

/-! ### Edges (R73, R74, R79 to R81) -/

/-- An edge selection matches an edge, rising when the flag is true and falling when it is false (R74). -/
def EdgeSelection.accepts : EdgeSelection → Bool → Bool
  | .none, _ => false
  | .rising, up => up
  | .falling, up => !up
  | .both, _ => true

/-- A parked entry armed by an edge at its delay after the capture, with left set to repeat (R79). -/
def State.edgeArm (s : State) (capture : Word) (e : EntryId) : State :=
  match s.entry e with
  | some a => s.move e { a with state := .armed (capture + a.delay), left := a.reps }
  | none => s

/-- The arms an accepted edge makes: the head in mode ONE, every entry from head to tail in mode ALL (R80, R81). -/
def State.edgeArms (s : State) (t : Fin 8) (capture : Word) : State :=
  match (s.triggers.get t).mode with
  | .one =>
    match (s.triggers.get t).park with
    | [] => s
    | e :: _ => s.edgeArm capture e
  | .all => (s.triggers.get t).park.foldl (fun s' e => s'.edgeArm capture e) s

/-- The trigger after a change of its sampled level alone, at a sample that shows the new one (R73). -/
def Trigger.flip (r : Trigger) : Trigger := { r with level := !r.level, sample := !r.level }

/-- The trigger after an accepted edge: captured and counted (R74). -/
def Trigger.accepted (r : Trigger) (now : Word) : Trigger :=
  { r.flip with capture := some now, count := saturate8 r.count }

/-- The edge a change of the sampled level makes is accepted (R74). -/
def State.acceptsEdge (s : State) (t : Fin 8) : Bool :=
  (s.triggers.get t).edge.accepts (!(s.triggers.get t).level) && !s.time.frozen

/-- The part after an edge: the sampled level changes; an accepted edge captures, counts and arms (R73, R74). -/
def State.takeEdge (s : State) (t : Fin 8) : State :=
  if s.acceptsEdge t then
    (s.setTrigger t ((s.triggers.get t).accepted s.time.count)).edgeArms t s.time.count
  else s.setTrigger t (s.triggers.get t).flip

/-- TRIGGER_EDGE: the samples of a trigger's input since its last event. The sampled level changes, which is the edge, at
the last of them; a pulse that does not last through two successive samples is not seen (R73). Samples with a change
before the last one do not end at the edge they make (log 2). -/
def execTriggerEdge (t : Fin 8) (samples : List Bool) (s : State) : Host.Outcome State Fault Refusal :=
  if s.running then
    match filtered (s.triggers.get t).level (s.triggers.get t).sample samples with
    | .kept b => .next (s.setTrigger t { s.triggers.get t with sample := b })
    | .changed => .next (s.takeEdge t)
    | .beyond => .next s
  else .next s

/-! ### TRIGGER_CONFIG and READ_TRIGGER (R86, R87) -/

/-- TRIGGER_CONFIG after stages 1 to 3 (R86). -/
def runTriggerConfig (p : Port) (body : List Byte) (s : State) : Answer :=
  withBody readTriggerConfigBody body s fun (t, edge, mode) =>
    if s.lines.triggerClaims.get t = some p then
      Answer.ok [] (s.setTrigger t { s.triggers.get t with edge := edge, mode := mode })
    else Answer.refuse .notClaimed s

/-- TRIGGER_CONFIG (R86). -/
def execTriggerConfig (c : Cmd) (s : State) : Host.Outcome State Fault Refusal :=
  .next (takeCommand 0x40 (exactly 3) .either runTriggerConfig c s)

/-- The READ_TRIGGER record (Table 10.17). -/
def triggerRecord (t : Fin 8) (r : Trigger) : List Byte :=
  [BitVec.ofNat 8 t.val, bitAt r.capture.isSome 0 ||| bitAt r.level 1] ++ bytes32 (r.capture.getD 0) ++ [r.count] ++
    bytesCount r.park.length

/-- READ_TRIGGER after stages 1 to 3: the claim holder's read zeroes the edge count (R87). -/
def runReadTrigger (p : Port) (body : List Byte) (s : State) : Answer :=
  withBody readReadTriggerBody body s fun t =>
    Answer.ok (triggerRecord t (s.triggers.get t))
      (if s.lines.triggerClaims.get t = some p then s.setTrigger t { s.triggers.get t with count := 0 } else s)

/-- READ_TRIGGER (R87). -/
def execReadTrigger (c : Cmd) (s : State) : Host.Outcome State Fault Refusal :=
  .next (takeCommand 0x41 (exactly 1) .either runReadTrigger c s)

end Sys2Proof.Machine
end

