-- ==== Sys2Proof/Machine/Dispatch.lean ====
section
/-!
DEFINITION. One arm for each command and event: its effect on everything but the queue.
-/
namespace Sys2Proof.Machine

def exec (i : Instr) (s : State) : Host.Outcome State Fault Refusal :=
  match i with
  | .echo c => Sys2Proof.Machine.execEcho c s
  | .status c => Sys2Proof.Machine.execStatus c s
  | .quota c => Sys2Proof.Machine.execQuota c s
  | .resetPart c sdi => Sys2Proof.Machine.execResetPart c sdi s
  | .evict c => Sys2Proof.Machine.execEvict c s
  | .leave c => Sys2Proof.Machine.execLeave c s
  | .alloc c => Sys2Proof.Machine.execAlloc c s
  | .retire c => Sys2Proof.Machine.execRetire c s
  | .config c => Sys2Proof.Machine.execConfig c s
  | .stage c => Sys2Proof.Machine.execStage c s
  | .armAt c => Sys2Proof.Machine.execArmAt c s
  | .armIn c => Sys2Proof.Machine.execArmIn c s
  | .armOn c => Sys2Proof.Machine.execArmOn c s
  | .disarm c => Sys2Proof.Machine.execDisarm c s
  | .suspend c => Sys2Proof.Machine.execSuspend c s
  | .resume c => Sys2Proof.Machine.execResume c s
  | .retime c => Sys2Proof.Machine.execRetime c s
  | .nudge c => Sys2Proof.Machine.execNudge c s
  | .look c => Sys2Proof.Machine.execLook c s
  | .give c => Sys2Proof.Machine.execGive c s
  | .takeNotices c => Sys2Proof.Machine.execTake c s
  | .noticeConfig c => Sys2Proof.Machine.execNoticeConfig c s
  | .claim c => Sys2Proof.Machine.execClaim c s
  | .release c => Sys2Proof.Machine.execRelease c s
  | .setLines c => Sys2Proof.Machine.execSetLines c s
  | .groupMode c => Sys2Proof.Machine.execGroupMode c s
  | .loadPhases c => Sys2Proof.Machine.execLoadPhases c s
  | .setGroup c => Sys2Proof.Machine.execSetGroup c s
  | .setLimits c => Sys2Proof.Machine.execSetLimits c s
  | .readLines c => Sys2Proof.Machine.execReadLines c s
  | .triggerConfig c => Sys2Proof.Machine.execTriggerConfig c s
  | .readTrigger c => Sys2Proof.Machine.execReadTrigger c s
  | .readTime c => Sys2Proof.Machine.execReadTime c s
  | .setTime c => Sys2Proof.Machine.execSetTime c s
  | .synthSet c => Sys2Proof.Machine.execSynthSet c s
  | .synthOn c => Sys2Proof.Machine.execSynthOn c s
  | .synthOff c => Sys2Proof.Machine.execSynthOff c s
  | .selectSource c => Sys2Proof.Machine.execSelect c s
  | .prescale c => Sys2Proof.Machine.execPrescale c s
  | .freeze c => Sys2Proof.Machine.execFreeze c s
  | .linkConfig c => Sys2Proof.Machine.execLinkConfig c s
  | .linkStatus c => Sys2Proof.Machine.execLinkStatus c s
  | .unknown code c => Sys2Proof.Machine.execUnknown code c s
  | .fire => Sys2Proof.Machine.execFire s
  | .tick cycles => Sys2Proof.Machine.execTick cycles s
  | .triggerEdge t samples => Sys2Proof.Machine.execTriggerEdge t samples s
  | .lockGained fRef => Sys2Proof.Machine.execLockGained fRef s
  | .lockLost => Sys2Proof.Machine.execLockLost s
  | .changeoverComplete => Sys2Proof.Machine.execChangeoverComplete s
  | .freezePinChange samples => Sys2Proof.Machine.execFreezePinChange samples s
  | .powerOnReset adr lspd nresetLow => Sys2Proof.Machine.execPowerOnReset adr lspd nresetLow s
  | .nresetAssert => Sys2Proof.Machine.execNresetAssert s
  | .nresetRelease adr lspd => Sys2Proof.Machine.execNresetRelease adr lspd s
  | .firstLevelPassed samples => Sys2Proof.Machine.execFirstLevelPassed samples s
  | .selFall => Sys2Proof.Machine.execSelFall s
  | .commandTransaction sdi => Sys2Proof.Machine.execCommandTransaction sdi s
  | .fetchTransaction sdi => Sys2Proof.Machine.execFetchTransaction sdi s
  | .pollTransaction sdi => Sys2Proof.Machine.execPollTransaction sdi s
  | .unknownKindTransaction sdi => Sys2Proof.Machine.execUnknownKindTransaction sdi s
  | .transactionWithoutKind sdi => Sys2Proof.Machine.execTransactionWithoutKind sdi s
  | .characterComplete rxd => Sys2Proof.Machine.execCharacterComplete rxd s
  | .gap rxd => Sys2Proof.Machine.execGap rxd s
  | .transmissionBegin rxd => Sys2Proof.Machine.execTransmissionBegin rxd s
  | .transmissionEnd periods => Sys2Proof.Machine.execTransmissionEnd periods s
  | .pendingSettingsInForce => Sys2Proof.Machine.execPendingSettingsInForce s
  | .startBit rxd => Sys2Proof.Machine.execStartBit rxd s
  | .falseStart rxd => Sys2Proof.Machine.execFalseStart rxd s

end Sys2Proof.Machine
end

