-- ==== Sys2Proof/Machine/Step.lean ====
section
/-!
DEFINITION. One step of the part: the command or event at the front of the queue, or, on an empty queue, one cycle of
REFCLK in which nothing comes (log 1).
-/
namespace Sys2Proof.Machine

/-- The next command or event of the queue is executed on the part with the rest of the queue. -/
def step (s : State) : Host.Outcome State Fault Refusal :=
  match s.pending with
  | [] => .next s.refCycle
  | i :: rest => exec i { s with pending := rest }

/-- The part with the command a word spells at the front of its queue; unchanged where the word spells none, which is
every word of this part's table (log 20). -/
def State.withFetchWord (s : State) (nbits w : Nat) : State :=
  match decodeTableWord nbits w with
  | some i => { s with pending := i :: s.pending }
  | none => s

end Sys2Proof.Machine
end

