-- ==== Sys2Proof/Safety.lean ====
section
/-!
DEFINITION. The laws of the part that every event keeps, in the data book's own terms, and the two ways a take ends. The
part never stops, so a safe run is one whose every state meets these laws.
-/
namespace Sys2Proof.Machine

/-! ### The ends of a take -/

/-- The command is executed with OK: the part is the given one, with the response placed. -/
def okNext (code : Byte) (c : Cmd) (body : List Byte) (s : State) : Host.Outcome State Fault Refusal :=
  .next ((Answer.ok body s).finish code c)

/-- The command is refused, or taken with NOT_ARMED: nothing but the slot, last served and the response (R135). -/
def refusedNext (code : Byte) (c : Cmd) (r : Result) (s : State) : Host.Outcome State Fault Refusal :=
  .next ((Answer.refuse r (s.emptySlot c.src.port)).finish code c)

/-- The part within the take of a command, its slot emptied. -/
abbrev during (s : State) (c : Cmd) : State := s.emptySlot c.src.port

/-- The CODE (Table 10.10) and the command of a take; none for an event. -/
def commandOf : Instr → Option (Byte × Cmd)
  | .echo c => some (0x01, c)
  | .status c => some (0x02, c)
  | .quota c => some (0x03, c)
  | .resetPart c _ => some (0x04, c)
  | .evict c => some (0x05, c)
  | .leave c => some (0x06, c)
  | .alloc c => some (0x10, c)
  | .retire c => some (0x11, c)
  | .config c => some (0x12, c)
  | .stage c => some (0x13, c)
  | .armAt c => some (0x14, c)
  | .armIn c => some (0x15, c)
  | .armOn c => some (0x16, c)
  | .disarm c => some (0x17, c)
  | .suspend c => some (0x18, c)
  | .resume c => some (0x19, c)
  | .retime c => some (0x1A, c)
  | .nudge c => some (0x1B, c)
  | .look c => some (0x1C, c)
  | .give c => some (0x1D, c)
  | .takeNotices c => some (0x20, c)
  | .noticeConfig c => some (0x21, c)
  | .claim c => some (0x30, c)
  | .release c => some (0x31, c)
  | .setLines c => some (0x32, c)
  | .groupMode c => some (0x33, c)
  | .loadPhases c => some (0x34, c)
  | .setGroup c => some (0x35, c)
  | .setLimits c => some (0x36, c)
  | .readLines c => some (0x37, c)
  | .triggerConfig c => some (0x40, c)
  | .readTrigger c => some (0x41, c)
  | .readTime c => some (0x50, c)
  | .setTime c => some (0x51, c)
  | .synthSet c => some (0x52, c)
  | .synthOn c => some (0x53, c)
  | .synthOff c => some (0x54, c)
  | .selectSource c => some (0x55, c)
  | .prescale c => some (0x56, c)
  | .freeze c => some (0x57, c)
  | .linkConfig c => some (0x60, c)
  | .linkStatus c => some (0x61, c)
  | .unknown code c => if knownCodes.contains code then none else some (code, c)
  | .fire => none
  | .tick _ => none
  | .triggerEdge _ _ => none
  | .lockGained _ => none
  | .lockLost => none
  | .changeoverComplete => none
  | .freezePinChange _ => none
  | .powerOnReset _ _ _ => none
  | .nresetAssert => none
  | .nresetRelease _ _ => none
  | .firstLevelPassed _ => none
  | .selFall => none
  | .commandTransaction _ => none
  | .fetchTransaction _ => none
  | .pollTransaction _ => none
  | .unknownKindTransaction _ => none
  | .transactionWithoutKind _ => none
  | .characterComplete _ => none
  | .gap _ => none
  | .transmissionBegin _ => none
  | .transmissionEnd _ => none
  | .pendingSettingsInForce => none
  | .startBit _ => none
  | .falseStart _ => none

/-- The body lengths Table 10.10 gives a CODE. -/
def bodyLengths (code : Byte) : List Nat :=
  if code = 0x01 then List.range 43
  else if code = 0x10 ∨ code = 0x37 then [0, 1]
  else if code ∈ [0x05, 0x11, 0x16, 0x17, 0x18, 0x19, 0x1C, 0x1D, 0x20, 0x41, 0x55, 0x56, 0x57] then [1]
  else if code ∈ [0x21, 0x33] then [2]
  else if code ∈ [0x03, 0x30, 0x31, 0x40] then [3]
  else if code ∈ [0x51, 0x52, 0x60] then [4]
  else if code ∈ [0x14, 0x15, 0x1A, 0x1B] then [5]
  else if code = 0x32 then [6]
  else if code = 0x35 then [8]
  else if code ∈ [0x13, 0x34] then [9]
  else if code = 0x36 then [10]
  else if code = 0x12 then [19]
  else [0]

/-- The port has permission for a CODE (R133). -/
def permitted (code : Byte) (p : Port) : Bool :=
  if code ∈ [0x03, 0x04, 0x05, 0x51, 0x52, 0x53, 0x54, 0x55, 0x56, 0x57, 0x60] then p == .spi
  else if code = 0x06 then p == .link
  else true

/-- The part fires this entry, with this record and due, at its next FIRE: it runs, is not frozen, and the entry is the
head of the due list and due (R28). -/
structure Fires (s : State) (e : EntryId) (a : Entry) (due : Word) : Prop where
  running : s.phase = .running
  thawed : s.time.frozen = false
  head : s.dueList.head? = some e
  record : s.entry e = some a
  armed : a.state = .armed due
  isDue : difference due s.time.count ≤ 0

/-- The step of the entry's action is refused at a limit of its group. -/
def stepRefused (s : State) (a : Entry) : Prop :=
  ∃ g, (a.action = .stepFwd g ∧
      withinLimits (s.lines.groups.get g).limits ((s.lines.groups.get g).position + 1) = false) ∨
    (a.action = .stepRev g ∧
      withinLimits (s.lines.groups.get g).limits ((s.lines.groups.get g).position - 1) = false)

/-- The flags of an entry's item in a port's queue; none while no item stands there. -/
def State.reportedFlags (s : State) (p : Port) (e : EntryId) : EntryFlags :=
  match entryReport e (s.notices.queues.get p) with
  | some r => r.flags
  | none => {}

/-- The body of the CONFIG that writes a configuration (Tables 10.10, 10.11). -/
def configBytes (e : EntryId) (f : EntryConfig) : List Byte :=
  [entryByte e] ++ bytes16 f.tag ++ bytes32 f.period ++ bytes16 f.reps ++ bytes32 f.delay ++ actionBytes f.action ++
    [lateByte f.late ||| bitAt f.notify 2 ||| bitAt f.repark 3 ||| bitAt f.chain.isSome 4 ||| bitAt f.trigger.isSome 5,
      match f.chain with
      | some t => entryByte t
      | none => 0,
      match f.trigger with
      | some t => BitVec.ofNat 8 t.val
      | none => 0]

/-- The configuration lies in the ranges of R14. -/
def configInRange (f : EntryConfig) : Prop :=
  f.period.msb = false ∧ f.delay.msb = false ∧ f.delay ≠ 0 ∧ (f.repark = true → f.trigger ≠ none)

/-- The body of the STAGE that sets a staged record (Table 10.10). -/
def stageBytes (e : EntryId) (w : Staged) : List Byte :=
  [entryByte e, bitAt w.period.isSome 0 ||| bitAt w.action.isSome 1] ++ bytes32 (w.period.getD 0) ++
    actionBytes (w.action.getD .none)

/-- The body of a GROUP_MODE (Table 10.10). -/
def groupModeBytes (g : Fin 4) (m : GroupMode) : List Byte := [BitVec.ofNat 8 g.val, if m = .lines then 0 else 1]

/-- The body of a LOAD_PHASES (Table 10.10). -/
def loadPhasesBytes (g : Fin 4) (table : Vector (BitVec 4) 8) : List Byte :=
  BitVec.ofNat 8 g.val :: table.toList.map (·.setWidth 8)

/-- The body of a SET_GROUP (Table 10.10). -/
def setGroupBytes (g : Fin 4) (w : GroupWrite) : List Byte :=
  [BitVec.ofNat 8 g.val, bitAt w.index.isSome 0 ||| bitAt w.position.isSome 1 ||| bitAt w.step.isSome 2,
    (w.index.getD 0).setWidth 8] ++ bytes32 (w.position.getD 0) ++
    [if w.step = none then 0 else if w.step = some .one then 1 else 2]

/-- The body of a SET_LIMITS (Table 10.10). -/
def setLimitsBytes (g : Fin 4) (limits : Option Limits) : List Byte :=
  [BitVec.ofNat 8 g.val, bitAt limits.isSome 0] ++
    (match limits with
      | some m => bytes32 m.min ++ bytes32 m.max
      | none => bytes32 0 ++ bytes32 0)

/-- The body of a SYNTH_SET (Table 10.10). -/
def synthSetBytes (w : SynthWrite) : List Byte :=
  [bitAt w.nl.isSome 0 ||| bitAt w.policy.isSome 1, ((w.nl.map Prod.fst).getD 0).setWidth 8,
    ((w.nl.map Prod.snd).getD 0).setWidth 8, if w.policy = some .hold then 1 else 0]

/-- Every value that the three kinds of reset agree on (R142): the entry table (R23), the due list (R54), the line unit
(R72), the triggers but for their levels (R88), the notices (R104), the time base but for the FREEZE pin level (R124),
the slots and last served (Table 7.1), the SPI port (R159), and the link port but for address, D, G and Q (Table 9.1). -/
structure ResetLaw (t : State) : Prop where
  free : ∀ e, t.entry e = none
  quotas : t.quotas = ⟨256, 64⟩
  due : t.dueList = []
  levels : t.lines.levels = 0 ∧ t.lines.drives = 0
  claims : (∀ l, t.lines.lineClaims.get l = none) ∧ ∀ k, t.lines.triggerClaims.get k = none
  groups : ∀ g, (t.lines.groups.get g).mode = .lines ∧ (t.lines.groups.get g).table = Vector.replicate 8 0 ∧
    (t.lines.groups.get g).index = 0 ∧ (t.lines.groups.get g).step = .one ∧ (t.lines.groups.get g).position = 0 ∧
    (t.lines.groups.get g).limits = none
  triggers : ∀ k, (t.triggers.get k).edge = .none ∧ (t.triggers.get k).mode = .one ∧
    (t.triggers.get k).capture = none ∧ (t.triggers.get k).count = 0 ∧ (t.triggers.get k).park = []
  notices : t.notices.queues = ⟨[], []⟩ ∧ t.notices.signalling = ⟨false, false⟩ ∧
    t.notices.consume = ⟨false, false⟩ ∧ t.notices.marker = false
  synth : t.time.synth = .off ∧ t.time.n = 4 ∧ t.time.l = 8 ∧ t.time.policy = .fallback
  source : t.time.source = .ref ∧ t.time.changeover = none ∧ t.time.hold = false
  count : t.time.exponent = 0 ∧ t.time.pendingExponent = none ∧ t.time.prescaler = 0 ∧ t.time.count = 0 ∧
    t.time.freezeCommand = false
  slots : t.ctl.commands = ⟨none, none⟩ ∧ t.ctl.responses = ⟨none, none⟩ ∧ t.ctl.lastServed = .link
  spi : t.spi.transaction = none ∧ t.spi.buffer = [] ∧ t.spi.bufferCount = 0 ∧ t.spi.lastResult = .none
  link : t.link.pendingSettings = none ∧ t.link.lastError = .none ∧ t.link.receiver = .hunting ∧
    t.link.insideChar = false ∧ t.link.idleCount = 0 ∧ t.link.transmitter = .quiet ∧ t.link.rxdHigh = false ∧
    t.link.idleSamples = 0 ∧ t.link.sinceChar = 0

/-! ### The laws of the part -/

/-- No port owns more entries than its quota, and a quota is at most 256 (R11). -/
def QuotaLaw (s : State) : Prop := ∀ p : Port, s.ownedCount p ≤ s.quotas.get p ∧ s.quotas.get p ≤ 256

/-- The due list holds every ARMED entry exactly once and nothing else, and each park list every PARKED entry of its
trigger exactly once and nothing else (R9, R25, R76). -/
structure ListLaw (s : State) : Prop where
  dueOnce : s.dueList.Nodup
  dueArmed : ∀ e, e ∈ s.dueList ↔ (s.dueOf e).isSome = true
  parkOnce : ∀ t, (s.triggers.get t).park.Nodup
  parked : ∀ t e, e ∈ (s.triggers.get t).park ↔ ∃ a, s.entry e = some a ∧ a.state = .parked ∧ a.trigger = some t

/-- The due list is ordered by the signed difference of each due from the time count, smallest first (R25). -/
def DueOrder (s : State) : Prop := s.dueList.Pairwise fun x y => s.keyOf x ≤ s.keyOf y

/-- No entry of the due list has waited 2^16 ticks to be fired, and each was past by at least as much as it was when it
joined the list (R27; log 9). -/
structure PromptLaw (s : State) : Prop where
  prompt : ∀ e ∈ s.dueList, s.waited e < Config.promptTicks
  recorded : ∀ e ∈ s.dueList, (s.armedPast.get e : Int) ≤ max 0 (-(s.keyOf e))

/-- Every action, staged action and trigger of an entry is claimed by its owner, and every action's group is in the mode
its kind needs (R4). -/
def ActionLaw (s : State) : Prop :=
  ∀ e a, s.entry e = some a →
    s.lines.claimsEntry a.owner a = true ∧ s.lines.modeAdmits a.action = true ∧
      s.lines.modeAdmits (a.staged.action.getD .none) = true

/-- A SEQUENCE group shows the pattern at its index, and a position lies within its limits (R60). -/
def GroupLaw (u : LineUnit) : Prop :=
  ∀ g, ((u.groups.get g).mode = .sequence → groupLevels u.levels g = (u.groups.get g).pattern) ∧
    withinLimits (u.groups.get g).limits (u.groups.get g).position = true

/-- The two items report one source: the same entry, or the time base. -/
def sameSource : NoticeItem → NoticeItem → Prop
  | .entry e _, .entry e' _ => e = e'
  | .timebase _ _, .timebase _ _ => True
  | .entry _ _, .timebase _ _ => False
  | .timebase _ _, .entry _ _ => False

/-- The count of an item. -/
def NoticeItem.count : NoticeItem → BitVec 16
  | .entry _ r => r.count
  | .timebase n _ => n

/-- Each queue holds each source at most once and only entries its port owns, each with a count of at least 1; the link
queue never holds the TIMEBASE item (R90). -/
structure NoticeLaw (s : State) : Prop where
  once : ∀ p, (s.notices.queues.get p).Pairwise fun i j => ¬ sameSource i j
  owned : ∀ p e r, .entry e r ∈ s.notices.queues.get p → ownedBy p (s.entry e) = true
  counted : ∀ p i, i ∈ s.notices.queues.get p → i.count ≠ 0
  noTimebase : ∀ i ∈ s.notices.queues.link, i.isTimebase = false

/-- A marker request stands only for a non-empty link queue with link signalling on (R98, R99). -/
def MarkerLaw (n : NoticeUnit) : Prop :=
  n.marker = true → n.queues.link ≠ [] ∧ n.signalling.link = true

/-- The laws of the time base: SYNTH is selected only while the synthesizer runs with L not 0 (R108), a changeover
leads to the other source and one to SYNTH needs LOCKED (R109), a hold stands only on an unlocked SYNTH (R110), and the
prescaler count stays below 2^k (R118). -/
structure TimeLaw (t : TimeBase) : Prop where
  runs : t.source = .synth → t.synth ≠ .off
  range : t.synth ≠ .off → t.l ≠ 0
  towardSynth : ∀ c, t.changeover = some c → c.target = .synth → t.source = .ref ∧ t.synth = .locked
  towardRef : ∀ c, t.changeover = some c → c.target = .ref → t.source = .synth
  held : t.hold = true → t.source = .synth ∧ t.synth = .unlocked
  prescaler : t.prescaler < 2 ^ t.exponent.toNat

/-- Settings within their ranges: D 1 to 4096, G 16 to 255, Q 2 to 64 (Table 9.1). -/
def LinkSettings.inRange (w : LinkSettings) : Prop :=
  1 ≤ w.d.toNat ∧ w.d.toNat ≤ 4096 ∧ 16 ≤ w.g.toNat ∧ 2 ≤ w.q.toNat ∧ w.q.toNat ≤ 64

/-- At most one of the link slots is filled (R125, R126); a response being sent stands in its slot, and the receiver is
HUNTING and not inside a character while the port sends (R171, R172); pending settings never wait on an idle link
(R175); no response or marker waits where a transmission can begin (R171); address, settings and idle count lie in their
ranges (Table 9.1). -/
structure LinkLaw (s : State) : Prop where
  oneSlot : s.ctl.commands.link = none ∨ s.ctl.responses.link = none
  sending : ∀ what chars sent, s.link.transmitter = .sending what chars sent →
    s.link.receiver = .hunting ∧ s.link.insideChar = false ∧
      (what = .response → s.ctl.responses.link.isSome = true)
  settled : s.link.pendingSettings.isSome = true → s.linkIdle = false
  begun : s.sendDue = false
  address : s.link.address ≠ 0
  inForce : s.link.settings.inRange
  waiting : ∀ w, s.link.pendingSettings = some w → w.inRange
  idle : s.link.idleCount ≤ s.link.settings.q.toNat

/-- A chain names an allocated entry of the same owner (R6), and repark stands only beside a trigger (R7). -/
def ChainLaw (s : State) : Prop :=
  ∀ e a, s.entry e = some a →
    (∀ t, a.chain = some t → ownedBy a.owner (s.entry t) = true) ∧ (a.repark = true → a.trigger.isSome = true)

/-- The part is running, or it has every reset value, no transaction drives SDO, and the reset cause is that of a
power-on or pin reset (R142, R144, R159). -/
def HeldLaw (s : State) : Prop :=
  s.phase ≠ .running → ResetLaw s ∧ s.spi.cut = none ∧ (s.ctl.resetCause = .powerOn ∨ s.ctl.resetCause = .pin)

end Sys2Proof.Machine
end

