-- ==== Sys2Proof/Certificates/Slice0/Obligations.lean ====
section
/-!
DEFINITION. The statements about the part, from the numbered rules of the data book. okNext and refusedNext (Safety) are
next states of exec; `during s c` is the part within the take of c, its slot emptied (R128). A statement on a command
takes s.takes: the command stands in its slot and is the controller's next (R125, R127).
-/
section
open Sys2Proof Sys2Proof.Machine

/-! ### The step and the reset state -/

/-- A step executes the command or event at the front of the queue on the part with the rest of the queue. -/
def Obligations.StepRunsFront : Prop :=
  ∀ (i : Instr) (rest : List Instr) (s : State),
    step { s with pending := i :: rest } = exec i { s with pending := rest }

/-- The model's choice (log 1): on an empty queue a step is one cycle of REFCLK in which nothing comes. A part that does
not run stays as it is. Every input is sampled at its sampled level. The time base counts one cycle of REF or N of
SYNTH, each as a TICK of one cycle; with REF selected and the count advancing the prescaler count rises, or the cycle
that completes 2^k makes the tick, unless an entry has to be fired before it (R27; log 9). Every D cycles the link port
has a sample period: RXD is at 1 outside a character, a frame in assembly is abandoned when its gap passes, and a frame
being sent goes on and ends with its last stop bit. The link is settled last: pending settings, or a transmission whose
conditions hold (log 10, log 25). -/
def Obligations.EmptyQueueRunsClock : Prop :=
  ∀ s : State, s.pending = [] →
    (s.phase ≠ .running → step s = .next s) ∧
    (s.phase = .running → ∃ t : State, step s = .next t.settleLink ∧
      t = { s with time := t.time, link := t.link, triggers := t.triggers
                   ctl := { s.ctl with responses := t.ctl.responses } } ∧
      (∀ k, t.triggers.get k = { s.triggers.get k with sample := (s.triggers.get k).level }) ∧
      let rested := { s.time with freezeSample := s.time.freezePin }
      t.time =
        { (State.cycleByCycle (if s.time.source = .ref ∨ s.time.n = 0 then 1 else s.time.n.toNat) s).time with
          freezeSample := s.time.freezePin } ∧
      (s.time.frozen = true ∨ s.time.changeover ≠ none ∨ s.time.hold = true → t.time = rested) ∧
      (s.time.frozen = false → s.time.changeover = none → s.time.hold = false → s.time.source = .ref →
        (s.time.prescaler + 1 < 2 ^ s.time.exponent.toNat →
          t.time = { rested with prescaler := s.time.prescaler + 1 }) ∧
        (s.time.prescaler + 1 = 2 ^ s.time.exponent.toNat →
          t.time =
            if (∃ e ∈ s.dueList, 65535 ≤ s.waited e ∨ s.keyOf e = Config.mostPast) then rested
            else
              { rested with
                count := s.time.count + 1, prescaler := 0
                exponent := s.time.pendingExponent.getD s.time.exponent, pendingExponent := none })) ∧
      let line := fun (k : LinkPort) => t.link = k ∧ t.ctl = s.ctl
      (s.link.divider + 1 < s.link.settings.d.toNat → line { s.link with divider := s.link.divider + 1 }) ∧
      (s.link.settings.d.toNat ≤ s.link.divider + 1 →
        let sampled := ({ s.link with divider := 0 } : LinkPort).sample true
        let passed := s.link.receiver ≠ .hunting ∧ 16 * s.link.settings.g.toNat + 7 ≤ sampled.sinceChar
        (s.link.transmitter = .quiet → s.link.insideChar = true → line { s.link with divider := 0 }) ∧
        (s.link.transmitter = .quiet → s.link.insideChar = false → ¬ passed → line sampled) ∧
        (s.link.transmitter = .quiet → s.link.insideChar = false → passed →
          line { sampled with receiver := .hunting, lastError := .gap, sinceChar := 0 }) ∧
        ∀ what chars sent, s.link.transmitter = .sending what chars sent →
          (sent + 1 < 176 * chars.length →
            line { s.link with divider := 0, transmitter := .sending what chars (sent + 1) }) ∧
          (176 * chars.length ≤ sent + 1 →
            t.link = { s.link with divider := 0, transmitter := .quiet, idleSamples := 0, rxdHigh := false } ∧
            t.ctl.responses = if what = .response then ⟨s.ctl.responses.spi, none⟩ else s.ctl.responses)))

/-! ### The take of a command -/

/-- A command is taken only while the part runs, from the slot it stands in, and not before the other port's when both
slots are full and its own port was served last; otherwise its take does not arise and nothing changes (log 2, log 3). -/
def Obligations.TakeArbitration : Prop :=
  ∀ (i : Instr) (code : Byte) (c : Cmd) (s : State), commandOf i = some (code, c) →
    (s.phase ≠ .running → exec i s = .next s) ∧
    (s.ctl.commands.get c.src.port ≠ some (cmdFrame code c) → exec i s = .next s) ∧
    ((s.ctl.commands.get c.src.port.other).isSome = true → s.ctl.lastServed = c.src.port → exec i s = .next s) ∧
    (s.phase = .running → s.ctl.commands.get c.src.port = some (cmdFrame code c) →
      (s.ctl.commands.get c.src.port.other = none ∨ s.ctl.lastServed = c.src.port.other) →
        s.takes code c = true)

/-- Every take ends in an answer with the slot emptied and its port served last, but for the slots that RESET_PART
resets; one with a result other than OK changes nothing more and has an empty body. -/
def Obligations.TakeAnswers : Prop :=
  ∀ (i : Instr) (code : Byte) (c : Cmd) (s : State), commandOf i = some (code, c) → s.takes code c = true →
    ∃ a : Answer, exec i s = .next (a.finish code c) ∧ a.state.ctl.commands.get c.src.port = none ∧
      (code ≠ 0x04 → a.state.ctl.lastServed = c.src.port) ∧
      (a.result ≠ .ok → a = { result := a.result, body := [], overwrote := false, notConsumed := false,
                              state := during s c })

/-- The response of an answer goes to the issuing port's slot with CODE plus 80H, the SEQ, the result and the body; in
the SPI slot it replaces the one held there, with FLAGS bit 0; a broadcast command has none. Nothing else changes before
the link is settled. Settling, which ends every event that can call for it, brings pending settings into force on an
idle link, with the idle count at 0 and the sample clock restarted (log 6, log 10); and on a line that is ready (R171:
the transmitter QUIET, the receiver HUNTING and outside a character, the idle count at Q) it begins the transmission of a
waiting response, or else of a pending marker, whose request becomes none, with the sample periods counted from there
(log 25, log 26). It changes nothing else, and leaves no transmission due. -/
def Obligations.ResponsePlaced : Prop :=
  (∀ (code : Byte) (c : Cmd) (a : Answer),
    let r : Response := { code := code + 0x80, seq := c.seq, result := a.result, overwrote := a.overwrote,
                          notConsumed := a.notConsumed, body := a.body }
    ∃ t : State, a.finish code c = t.settleLink ∧
      t = { a.state with ctl := { a.state.ctl with responses := t.ctl.responses }, spi := t.spi } ∧
      (c.src = .spi →
        t.ctl.responses = ⟨some { r with overwrote := a.overwrote || a.state.ctl.responses.spi.isSome },
          a.state.ctl.responses.link⟩ ∧
        t.spi =
          { a.state.spi with transaction := a.state.spi.transaction.map fun x => { x with placed := true } }) ∧
      (c.src = .link → t.ctl.responses = ⟨a.state.ctl.responses.spi, some r⟩ ∧ t.spi = a.state.spi) ∧
      (c.src = .broadcast → t.ctl.responses = a.state.ctl.responses ∧ t.spi = a.state.spi)) ∧
  ∀ s : State,
    let free := s.link.receiver = .hunting ∧ s.link.insideChar = false ∧ s.link.transmitter = .quiet
    let idle := free ∧ s.ctl.responses.link = none ∧ s.ctl.commands.link = none ∧ s.notices.marker = false
    let ready := free ∧ s.link.settings.q.toNat ≤ s.link.idleCount
    let own : LinkChar := { data := 0x80 ||| s.link.address.setWidth 8, mark := true }
    (idle → (s.link.pendingSettings = none → s.settleLink = s) ∧
      ∀ w, s.link.pendingSettings = some w → s.settleLink =
        { s with link :=
          { s.link with settings := w, pendingSettings := none, idleSamples := 0, divider := 0 } }) ∧
    (ready → ∀ r, s.ctl.responses.link = some r → s.settleLink =
      { s with link := { s.link with
        transmitter := .sending .response (own :: (responseBytes r).map fun b => { data := b, mark := false }) 0
        divider := 0 } }) ∧
    (ready → s.ctl.responses.link = none → s.notices.marker = true → s.settleLink =
      { s with
        link := { s.link with
          transmitter := .sending .marker [own, { data := 0x4E, mark := false }] 0, divider := 0 }
        notices := { s.notices with marker := false } }) ∧
    (¬ idle → ¬ (ready ∧ (s.ctl.responses.link ≠ none ∨ s.notices.marker = true)) → s.settleLink = s) ∧
    s.settleLink.sendDue = false

/-- A CODE that names no command is refused with UNKNOWN whatever its length and its port; a known one with a body
length it does not accept with LENGTH, whatever its port; and then one without port permission with NOT_PERMITTED. -/
def Obligations.CodeLengthPermission : Prop :=
  (∀ (code : Byte) (c : Cmd) (s : State), knownCodes.contains code = false → s.takes code c = true →
    exec (.unknown code c) s = refusedNext code c .unknown s) ∧
  ∀ (i : Instr) (code : Byte) (c : Cmd) (s : State), commandOf i = some (code, c) → knownCodes.contains code = true →
    s.takes code c = true →
    (c.body.length ∉ bodyLengths code → exec i s = refusedNext code c .length s) ∧
    (c.body.length ∈ bodyLengths code → permitted code c.src.port = false →
      exec i s = refusedNext code c .notPermitted s)

/-- RETIRE, ARM_AT, ARM_ON, DISARM, SUSPEND, RESUME, RETIME, NUDGE and GIVE refuse a FREE entry with NO_ENTRY and the
other port's entry with NOT_OWNER; NUDGE refuses an offset of -2^31 with RANGE before that. -/
def Obligations.EntryChecks : Prop :=
  (∀ (i : Instr) (code : Byte) (c : Cmd) (s : State) (b : Byte) (rest : List Byte), commandOf i = some (code, c) →
    code ∈ ([0x11, 0x14, 0x16, 0x17, 0x18, 0x19, 0x1A, 0x1B, 0x1D] : List Byte) → s.takes code c = true →
    c.body = b :: rest → c.body.length ∈ bodyLengths code → (code = 0x1B → rest ≠ bytes32 0x80000000) →
    (s.entry (entryOfByte b) = none → exec i s = refusedNext code c .noEntry s) ∧
    (∀ a, s.entry (entryOfByte b) = some a → a.owner ≠ c.src.port → exec i s = refusedNext code c .notOwner s)) ∧
  ∀ (c : Cmd) (s : State) (b : Byte), s.takes 0x1B c = true → c.body = b :: bytes32 0x80000000 →
    exec (.nudge c) s = refusedNext 0x1B c .range s

/-! ### Part-level commands -/

/-- ECHO is taken from either port, answers OK with its body, and changes no state; a body of 43 or 44 bytes is refused
with LENGTH. -/
def Obligations.Echo : Prop :=
  ∀ (c : Cmd) (s : State), s.takes 0x01 c = true →
    (c.body.length ≤ 42 → exec (.echo c) s = okNext 0x01 c c.body (during s c)) ∧
    (c.body.length = 43 ∨ c.body.length = 44 → exec (.echo c) s = refusedNext 0x01 c .length s)

/-- STATUS reports cause, time base, freeze, counts, quotas and address, and from SPI clears the cause. -/
def Obligations.StatusReport : Prop :=
  ∀ (c : Cmd) (s : State), s.takes 0x02 c = true → c.body = [] →
    ∃ b : Byte,
      exec (.status c) s =
        okNext 0x02 c
          ([causeByte s.ctl.resetCause, b] ++ bytesCount s.freeCount ++ bytesCount (s.ownedCount .spi) ++
            bytesCount (s.ownedCount .link) ++ bytesCount s.quotas.spi ++ bytesCount s.quotas.link ++
            [s.link.address.setWidth 8])
          { during s c with
            ctl := { (during s c).ctl with resetCause := if c.src = .spi then .none else s.ctl.resetCause } } ∧
      b.getLsbD 0 = decide (s.time.source = .synth) ∧ b.extractLsb' 1 2 = (synthByte s.time.synth).setWidth 2 ∧
      b.getLsbD 3 = s.time.changeover.isSome ∧ b.getLsbD 4 = s.time.hold ∧ b.getLsbD 5 = s.time.frozen ∧
      b.extractLsb' 6 2 = 0

/-- RESET_PART leaves every block at its reset values with cause COMMAND, keeps the sampled levels, the last samples and
the link address, D, G and Q, and is answered OK after the reset, with FLAGS bit 0 when a response was lost. An open
transaction is cut: it keeps what it had shifted out before the reset, and the rest of its status byte; zeros follow
(log 15 for a data byte in progress). -/
def Obligations.ResetPart : Prop :=
  ∀ (c : Cmd) (sdi : List Bool) (s : State), s.takes 0x04 c = true → c.src = .spi → c.body = [] →
    ∃ t : State,
      exec (.resetPart c sdi) s =
        .next (Answer.finish 0x04 c { result := .ok, body := [], overwrote := s.ctl.responses.spi.isSome,
                                      notConsumed := false, state := t }) ∧
      ResetLaw t ∧ t.ctl.resetCause = .command ∧ t.link.address = s.link.address ∧
      t.link.settings = s.link.settings ∧ t.link.divider = s.link.divider ∧
      (∀ k, (t.triggers.get k).level = (s.triggers.get k).level ∧ (t.triggers.get k).sample = (s.triggers.get k).sample) ∧
      t.time.freezePin = s.time.freezePin ∧ t.time.freezeSample = s.time.freezeSample ∧ t.phase = s.phase ∧ t.pending = s.pending ∧
      t.spi.selLow = s.spi.selLow ∧
      (s.spi.transaction = none → t.spi.cut = s.spi.cut) ∧
      ∀ x, s.spi.transaction = some x →
        (sdi.length ≤ 8 → t.spi.cut = some (spiBits x.status)) ∧
        ∀ kind rest, sdi = spiBits kind ++ rest →
          let out := if kind = 0x5A then ((x.copy.map responseBytes).getD []).flatMap spiBits else []
          t.spi.cut =
            some (spiBits x.status ++ out.take rest.length ++ List.replicate (rest.length - out.length) false)

/-! ### The entry table -/

/-- QUOTA sets the quota of the port it names. -/
def Obligations.Quota : Prop :=
  ∀ (c : Cmd) (s : State) (p q0 q1 : Byte), s.takes 0x03 c = true → c.src = .spi → c.body = [p, q0, q1] →
    let q := (le16 q0 q1).toNat
    ((1 < p.toNat ∨ 256 < q) → exec (.quota c) s = refusedNext 0x03 c .range s) ∧
    ∀ port : Port, p = portByte port → q ≤ 256 →
      (q < s.ownedCount port → exec (.quota c) s = refusedNext 0x03 c .inUse s) ∧
      (s.ownedCount port ≤ q →
        ∃ v : PerPort Nat, exec (.quota c) s = okNext 0x03 c [] { during s c with quotas := v } ∧
          v.get port = q ∧ v.get port.other = s.quotas.get port.other)

/-- ALLOC: QUOTA, FULL and IN_USE in that order; then the named or the lowest FREE entry becomes IDLE, owned by the
issuing port, with every field at its default. -/
def Obligations.Alloc : Prop :=
  ∀ (c : Cmd) (s : State), s.takes 0x10 c = true → c.body.length ≤ 1 →
    let p := c.src.port
    (s.quotas.get p ≤ s.ownedCount p → exec (.alloc c) s = refusedNext 0x10 c .quota s) ∧
    (s.ownedCount p < s.quotas.get p →
      ((∀ e, (s.entry e).isSome = true) → exec (.alloc c) s = refusedNext 0x10 c .full s) ∧
      ((∃ e, s.entry e = none) →
        (∀ b, c.body = [b] → (s.entry (entryOfByte b)).isSome = true →
          exec (.alloc c) s = refusedNext 0x10 c .inUse s) ∧
        ∀ e, s.entry e = none → (c.body = [entryByte e] ∨ (c.body = [] ∧ ∀ x, x < e → (s.entry x).isSome = true)) →
          exec (.alloc c) s =
            okNext 0x10 c [entryByte e]
              ((during s c).setEntry e (some
                { owner := p, state := .idle, tag := 0, period := 0, reps := 1, left := 0, late := .fire,
                  notify := false, action := .none, staged := { period := none, action := none }, delay := 1,
                  chain := none, trigger := none, repark := false }))))

/-- RETIRE answers the count and flags of the entry's item; the entry becomes FREE and leaves its list and its owner's
queue; the owner's chains that name it become absent. Nothing else changes. -/
def Obligations.Retire : Prop :=
  ∀ (c : Cmd) (s : State) (e : EntryId) (a : Entry), s.takes 0x11 c = true → c.body = [entryByte e] →
    s.entry e = some a → a.owner = c.src.port →
    ∃ t : State,
      exec (.retire c) s =
        okNext 0x11 c
          (match entryReport e (s.notices.queues.get a.owner) with
            | some r => bytes16 r.count ++ [entryFlagsByte r.flags]
            | none => [0, 0, 0]) t ∧
      t = { during s c with entries := t.entries, dueList := t.dueList, triggers := t.triggers, notices := t.notices } ∧
      t.entry e = none ∧
      (∀ x, x ≠ e → t.entry x = (s.entry x).map fun b =>
        if b.owner = a.owner ∧ b.chain = some e then { b with chain := none } else b) ∧
      t.dueList = s.dueList.filter (· ≠ e) ∧
      (∀ k, t.triggers.get k = { s.triggers.get k with park := (s.triggers.get k).park.filter (· ≠ e) }) ∧
      t.notices.queues.get a.owner = (s.notices.queues.get a.owner).filter (fun i => !i.reports e) ∧
      t.notices.queues.get a.owner.other = s.notices.queues.get a.owner.other ∧
      t.notices.signalling = s.notices.signalling ∧ t.notices.consume = s.notices.consume ∧
      t.notices.marker =
        if a.owner = .link ∧ t.notices.queues.link = [] then false else s.notices.marker

/-- CONFIG refuses with RANGE every body that writes no configuration in the ranges of R14; that these include a value
byte of 0 for a step action is the model's choice (log 11). For one in range it refuses NO_ENTRY, NOT_OWNER, STATE and
NOT_CLAIMED in the order of R14; else the whole configuration is replaced, and owner, state, left and the staged record
are kept. -/
def Obligations.Config : Prop :=
  (∀ (c : Cmd) (s : State), s.takes 0x12 c = true → c.body.length = 19 →
    (∀ e f, configInRange f → c.body ≠ configBytes e f) → exec (.config c) s = refusedNext 0x12 c .range s) ∧
  ∀ (c : Cmd) (s : State) (e : EntryId) (f : EntryConfig), s.takes 0x12 c = true → configInRange f →
    c.body = configBytes e f →
    let p := c.src.port
    let refused := fun r => exec (.config c) s = refusedNext 0x12 c r s
    (s.entry e = none → refused .noEntry) ∧
    ∀ a, s.entry e = some a →
      (∀ x, f.chain = some x → s.entry x = none → refused .noEntry) ∧
      ((∀ x, f.chain = some x → (s.entry x).isSome = true) →
        (a.owner ≠ p → refused .notOwner) ∧
        (a.owner = p →
          (∀ x, f.chain = some x → ownedBy p (s.entry x) = false → refused .notOwner) ∧
          ((∀ x, f.chain = some x → ownedBy p (s.entry x) = true) →
            (a.state ≠ .idle ∨ s.lines.modeAdmits f.action = false → refused .state) ∧
            (a.state = .idle → s.lines.modeAdmits f.action = true →
              (s.lines.claimsAction p f.action = false ∨ s.lines.claimsTrigger p f.trigger = false →
                refused .notClaimed) ∧
              (s.lines.claimsAction p f.action = true → s.lines.claimsTrigger p f.trigger = true →
                exec (.config c) s =
                  okNext 0x12 c []
                    ((during s c).setEntry e (some
                      { owner := a.owner, state := a.state, left := a.left, staged := a.staged, tag := f.tag,
                        period := f.period, reps := f.reps, late := f.late, notify := f.notify,
                        action := f.action, delay := f.delay, chain := f.chain, trigger := f.trigger,
                        repark := f.repark })))))))

/-- LOOK answers the 38 bytes of Table 10.13 for an allocated entry of either owner and changes nothing; a FREE entry is
refused with NO_ENTRY. -/
def Obligations.Look : Prop :=
  ∀ (c : Cmd) (s : State) (e : EntryId), s.takes 0x1C c = true → c.body = [entryByte e] →
    (s.entry e = none → exec (.look c) s = refusedNext 0x1C c .noEntry s) ∧
    ∀ a, s.entry e = some a →
      ∃ body : List Byte, exec (.look c) s = okNext 0x1C c body (during s c) ∧ body.length = 38 ∧
        body.take 3 = [entryByte e, stateByte a.state, portByte a.owner] ∧
        (∀ o, body[3]? = some o →
          o.extractLsb' 0 2 = (lateByte a.late).setWidth 2 ∧ o.getLsbD 2 = a.notify ∧ o.getLsbD 3 = a.repark ∧
          o.getLsbD 4 = a.chain.isSome ∧ o.getLsbD 5 = a.trigger.isSome ∧ o.extractLsb' 6 2 = 0) ∧
        (body.drop 4).take 19 =
          bytes16 a.tag ++ bytes32 a.period ++ bytes16 a.reps ++ bytes16 a.left ++ bytes32 a.delay ++
            actionBytes a.action ++
            [match a.chain with
              | some x => entryByte x
              | none => 0,
             match a.trigger with
              | some k => BitVec.ofNat 8 k.val
              | none => 0] ∧
        (body.drop 23).take 4 =
          bytes32 (match a.state with
            | .armed due => due
            | .held remaining => remaining
            | .idle => 0
            | .parked => 0) ∧
        (∀ o, body[27]? = some o →
          o.getLsbD 0 = a.staged.period.isSome ∧ o.getLsbD 1 = a.staged.action.isSome ∧ o.extractLsb' 2 6 = 0) ∧
        (body.drop 28).take 7 = bytes32 (a.staged.period.getD 0) ++ actionBytes (a.staged.action.getD .none) ∧
        body.drop 35 =
          (match entryReport e (s.notices.queues.get a.owner) with
            | some r => 1 :: bytes16 r.count
            | none => [0, 0, 0])

/-- GIVE: QUOTA, IN_USE and NOT_CLAIMED in that order; then the receiver owns the entry, every other field is kept, and
the entry's item goes from the giver's queue to the tail of the receiver's. The model's choice: the item keeps the tag it
was posted with, where a CONFIG has changed the entry's tag since (log 28). -/
def Obligations.Give : Prop :=
  ∀ (c : Cmd) (s : State) (e : EntryId) (a : Entry), s.takes 0x1D c = true → c.body = [entryByte e] →
    s.entry e = some a → a.owner = c.src.port →
    let p := c.src.port
    let refused := fun r => exec (.give c) s = refusedNext 0x1D c r s
    let bound := a.chain.isSome = true ∨ ∃ x b, s.entry x = some b ∧ b.chain = some e
    (s.quotas.get p.other ≤ s.ownedCount p.other → refused .quota) ∧
    (s.ownedCount p.other < s.quotas.get p.other →
      (bound → refused .inUse) ∧
      (¬ bound →
        (s.lines.claimsEntry p.other a = false → refused .notClaimed) ∧
        (s.lines.claimsEntry p.other a = true →
          ∃ n : NoticeUnit,
            exec (.give c) s =
              okNext 0x1D c []
                { (during s c).setEntry e (some { a with owner := p.other }) with notices := n } ∧
            n.signalling = s.notices.signalling ∧ n.consume = s.notices.consume ∧
            (entryReport e (s.notices.queues.get p) = none → n = s.notices) ∧
            ∀ r, entryReport e (s.notices.queues.get p) = some r →
              n.queues.get p = (s.notices.queues.get p).filter (fun i => !i.reports e) ∧
              n.queues.get p.other = s.notices.queues.get p.other ++ [.entry e r] ∧
              n.marker =
                match p with
                | .spi => s.notices.marker || (s.notices.queues.link.isEmpty && s.notices.signalling.link)
                | .link => s.notices.marker && !n.queues.link.isEmpty)))

/-- EVICT and LEAVE retire every LINK entry, release every LINK claim and empty the link queue, and answer the number of
entries retired; EVICT also discards the waiting link command, and the link response unless it is being sent. EVICT of
a port other than LINK is refused with RANGE. -/
def Obligations.EvictLeave : Prop :=
  (∀ (c : Cmd) (s : State) (b : Byte), s.takes 0x05 c = true → c.src = .spi → c.body = [b] → b ≠ 1 →
    exec (.evict c) s = refusedNext 0x05 c .range s) ∧
  ∀ (i : Instr) (code : Byte) (c : Cmd) (s : State), s.takes code c = true →
    (i = .evict c ∧ code = 0x05 ∧ c.src = .spi ∧ c.body = [1]) ∨
      (i = .leave c ∧ code = 0x06 ∧ c.src.port = .link ∧ c.body = []) →
    ∃ t : State, exec i s = okNext code c (bytesCount (s.ownedCount .link)) t ∧
      t = { during s c with
            entries := t.entries, dueList := t.dueList, triggers := t.triggers, notices := t.notices
            lines := { s.lines with lineClaims := t.lines.lineClaims, triggerClaims := t.lines.triggerClaims }
            ctl := { (during s c).ctl with commands := t.ctl.commands, responses := t.ctl.responses } } ∧
      (∀ e, t.entry e = if ownedBy .link (s.entry e) then none else s.entry e) ∧
      t.dueList = s.dueList.filter (fun e => !ownedBy .link (s.entry e)) ∧
      (∀ l, t.lines.lineClaims.get l = if s.lines.lineClaims.get l = some .link then none
        else s.lines.lineClaims.get l) ∧
      (∀ k, s.lines.triggerClaims.get k ≠ some .link →
        t.lines.triggerClaims.get k = s.lines.triggerClaims.get k ∧
        t.triggers.get k = { s.triggers.get k with
          park := (s.triggers.get k).park.filter fun e => !ownedBy .link (s.entry e) }) ∧
      (∀ k, s.lines.triggerClaims.get k = some .link →
        t.lines.triggerClaims.get k = none ∧
        t.triggers.get k =
          { edge := .none, mode := .one, capture := none, count := 0, level := (s.triggers.get k).level,
            sample := (s.triggers.get k).sample
            park := (s.triggers.get k).park.filter fun e => !ownedBy .link (s.entry e) }) ∧
      t.notices = { s.notices with queues := ⟨s.notices.queues.spi, []⟩, marker := false } ∧
      (code = 0x06 → t.ctl = (during s c).ctl) ∧
      (code = 0x05 → t.ctl.commands = ⟨none, none⟩ ∧ t.ctl.responses.spi = s.ctl.responses.spi ∧
        (∀ chars sent, s.link.transmitter = .sending .response chars sent → t.ctl.responses.link = s.ctl.responses.link) ∧
        ((∀ chars sent, s.link.transmitter ≠ .sending .response chars sent) → t.ctl.responses.link = none))

/-! ### Arming -/

/-- The change of an entry to a record takes it out of its list, gives it the record, and puts it in the list of its new
state: when ARMED, in the due list behind every entry whose due is equal or earlier; when PARKED, at the tail of its
trigger's park list. The others keep their order, and nothing else changes, but for the record of how far the due of an
entry was past when it joined the due list (R27; the model's own, log 9). -/
def Obligations.MoveBetweenLists : Prop :=
  ∀ (s : State) (e : EntryId) (a : Entry),
    let t := s.move e a
    let others := s.dueList.filter (· ≠ e)
    t = { s with
          entries := t.entries, dueList := t.dueList, armedPast := t.armedPast, triggers := t.triggers } ∧
    (∀ x, (∀ due, a.state = .armed due → x ≠ e) → t.armedPast.get x = s.armedPast.get x) ∧
    (∀ due, a.state = .armed due → t.armedPast.get e = ticksPast due s.time.count) ∧
    t.entry e = some a ∧ (∀ x, x ≠ e → t.entry x = s.entry x) ∧
    ((∀ due, a.state ≠ .armed due) → t.dueList = others) ∧
    (∀ due, a.state = .armed due → DueOrder s → ∃ before after,
      t.dueList = before ++ e :: after ∧ before ++ after = others ∧
      (∀ x ∈ before, s.keyOf x ≤ difference due s.time.count) ∧
      ∀ x ∈ after, difference due s.time.count < s.keyOf x) ∧
    ∀ k, t.triggers.get k = { s.triggers.get k with
      park := (s.triggers.get k).park.filter (· ≠ e) ++
        (if a.state = .parked ∧ a.trigger = some k then [e] else []) }

/-- The first grid point now or ahead of a past time is the least whole multiple, at least one, of the period beyond it
whose difference from the time count is not negative; it lies less than one period ahead. -/
def Obligations.FirstGridPoint : Prop :=
  ∀ t now p : Word, difference t now < 0 → Config.mostPast < difference t now → p ≠ 0 → p.msb = false →
    ∃ k : Nat, 1 ≤ k ∧ firstGridPoint t now p = t + BitVec.ofNat 32 (k * p.toNat) ∧
      difference (firstGridPoint t now p) now = difference t now + ((k * p.toNat : Nat) : Int) ∧
      0 ≤ difference (firstGridPoint t now p) now ∧
      difference (firstGridPoint t now p) now < (p.toNat : Int) ∧
      ∀ j : Nat, 1 ≤ j → j < k → difference t now + ((j * p.toNat : Nat) : Int) < 0

/-- STAGE sets the staged record whole, in any allocated state, and answers OK; it refuses with RANGE a body that
gives no record, and then with NO_ENTRY, NOT_OWNER, STATE and NOT_CLAIMED in that order. That a staged step action
with a nonzero value byte is among the bodies that give no record is the model's choice (log 11). -/
def Obligations.Stage : Prop :=
  (∀ (c : Cmd) (s : State), s.takes 0x13 c = true → c.body.length = 9 →
    (∀ e w, (∀ period, w.period = some period → period.msb = false) → c.body ≠ stageBytes e w) →
    exec (.stage c) s = refusedNext 0x13 c .range s) ∧
  ∀ (c : Cmd) (s : State) (e : EntryId) (w : Staged), s.takes 0x13 c = true →
    (∀ period, w.period = some period → period.msb = false) →
    c.body = stageBytes e w →
    let p := c.src.port
    let refused := fun r => exec (.stage c) s = refusedNext 0x13 c r s
    (s.entry e = none → refused .noEntry) ∧
    ∀ a, s.entry e = some a →
      (a.owner ≠ p → refused .notOwner) ∧
      (a.owner = p →
        (s.lines.modeAdmits (w.action.getD .none) = false → refused .state) ∧
        (s.lines.modeAdmits (w.action.getD .none) = true →
          (s.lines.claimsAction p (w.action.getD .none) = false → refused .notClaimed) ∧
          (s.lines.claimsAction p (w.action.getD .none) = true →
            exec (.stage c) s =
              okNext 0x13 c [] ((during s c).setEntry e (some { a with staged := w })))))

/-- ARM_AT takes an IDLE entry: a target more than 2^31 - 2^16 ticks past is RANGE; one now or ahead arms at it; a late
one is armed at it under FIRE, on the grid with the skipped indication under SKIP for a periodic entry, and refused
otherwise. Left becomes repeat. -/
def Obligations.ArmAt : Prop :=
  ∀ (c : Cmd) (s : State) (e : EntryId) (a : Entry) (t : Word), s.takes 0x14 c = true →
    c.body = entryByte e :: bytes32 t → s.entry e = some a → a.owner = c.src.port →
    let d := difference t s.time.count
    let refused := fun r => exec (.armAt c) s = refusedNext 0x14 c r s
    let arms := fun (due : Word) (skipped : Byte) =>
      exec (.armAt c) s =
        okNext 0x14 c (bytes32 due ++ [skipped]) ((during s c).move e { a with state := .armed due, left := a.reps })
    (a.state ≠ .idle → refused .state) ∧
    (a.state = .idle →
      (d < -2147418112 → refused .range) ∧
      (0 ≤ d → arms t 0) ∧
      (-2147418112 ≤ d → d < 0 →
        (a.late = .fire → arms t 0) ∧
        (a.late = .skip → a.period ≠ 0 → arms (firstGridPoint t s.time.count a.period) 1) ∧
        (a.late = .skip → a.period = 0 → refused .lateSkipped) ∧
        (a.late = .refuse → refused .late)))

/-- ARM_IN arms an IDLE entry a distance of 1 to 2^31 - 1 ticks from the time count, with left at repeat, and RESUME a
HELD entry its remaining distance from it, with left kept. -/
def Obligations.ArmInResume : Prop :=
  ∀ (c : Cmd) (s : State) (e : EntryId),
    (∀ d : Word, s.takes 0x15 c = true → c.body = entryByte e :: bytes32 d →
      (d = 0 ∨ d.msb = true → exec (.armIn c) s = refusedNext 0x15 c .range s) ∧
      (d ≠ 0 → d.msb = false →
        (s.entry e = none → exec (.armIn c) s = refusedNext 0x15 c .noEntry s) ∧
        ∀ a, s.entry e = some a →
          (a.owner ≠ c.src.port → exec (.armIn c) s = refusedNext 0x15 c .notOwner s) ∧
          (a.owner = c.src.port → a.state ≠ .idle → exec (.armIn c) s = refusedNext 0x15 c .state s) ∧
          (a.owner = c.src.port → a.state = .idle →
            exec (.armIn c) s =
              okNext 0x15 c (bytes32 (s.time.count + d) ++ [0])
                ((during s c).move e { a with state := .armed (s.time.count + d), left := a.reps })))) ∧
    (∀ a, s.takes 0x19 c = true → c.body = [entryByte e] → s.entry e = some a → a.owner = c.src.port →
      (∀ rem, a.state = .held rem →
        exec (.resume c) s =
          okNext 0x19 c (bytes32 (s.time.count + rem) ++ [0])
            ((during s c).move e { a with state := .armed (s.time.count + rem) })) ∧
      ((∀ rem, a.state ≠ .held rem) → exec (.resume c) s = refusedNext 0x19 c .state s))

/-- ARM_ON parks an IDLE entry that has a trigger at the tail of its park list and answers the list's length. DISARM
returns an entry to IDLE, discards its staged record and answers OK, or NOT_ARMED with no change if it is IDLE already.
SUSPEND holds an ARMED entry at its difference from the time count, or 0 if that is negative. -/
def Obligations.ParkDisarmSuspend : Prop :=
  ∀ (c : Cmd) (s : State) (e : EntryId) (a : Entry), c.body = [entryByte e] → s.entry e = some a →
    a.owner = c.src.port →
    (s.takes 0x16 c = true →
      (a.state ≠ .idle ∨ a.trigger = none → exec (.armOn c) s = refusedNext 0x16 c .state s) ∧
      ∀ k, a.state = .idle → a.trigger = some k → e ∉ (s.triggers.get k).park →
        exec (.armOn c) s =
          okNext 0x16 c (bytesCount ((s.triggers.get k).park.length + 1))
            ((during s c).move e { a with state := .parked })) ∧
    (s.takes 0x17 c = true →
      (a.state = .idle → exec (.disarm c) s = refusedNext 0x17 c .notArmed s) ∧
      (a.state ≠ .idle →
        exec (.disarm c) s =
          okNext 0x17 c []
            ((during s c).move e { a with state := .idle, staged := { period := none, action := none } }))) ∧
    (s.takes 0x18 c = true →
      ((∀ due, a.state ≠ .armed due) → exec (.suspend c) s = refusedNext 0x18 c .state s) ∧
      ∀ due, a.state = .armed due →
        ∃ rem : Word,
          exec (.suspend c) s = okNext 0x18 c (bytes32 rem) ((during s c).move e { a with state := .held rem }) ∧
          (rem.toNat : Int) = max 0 (difference due s.time.count))

/-- RETIME moves an ARMED entry to an absolute time and NUDGE by a signed offset, with left and the staged record
kept; a new difference above 2^31 - 1 or below -(2^31 - 2^16) is RANGE, and a late one is handled as by ARM_AT. The model's
choice: so is that of a NUDGE of 0 on an entry whose due is past (log 27). -/
def Obligations.RetimeNudge : Prop :=
  ∀ (i : Instr) (code : Byte) (c : Cmd) (s : State) (e : EntryId) (a : Entry) (w target : Word) (d : Int),
    s.takes code c = true → c.body = entryByte e :: bytes32 w → s.entry e = some a → a.owner = c.src.port →
    let refused := fun r => exec i s = refusedNext code c r s
    let arms := fun (due : Word) (skipped : Byte) =>
      exec i s = okNext code c (bytes32 due ++ [skipped]) ((during s c).move e { a with state := .armed due })
    (i = .retime c ∧ code = 0x1A ∧ target = w ∧ d = difference w s.time.count ∨
      i = .nudge c ∧ code = 0x1B ∧ w ≠ 0x80000000 ∧
        ∀ due, a.state = .armed due → target = due + w ∧ d = difference due s.time.count + w.toInt) →
    ((∀ due, a.state ≠ .armed due) → refused .state) ∧
    ((∃ due, a.state = .armed due) →
      (2147483647 < d ∨ d < -2147418112 → refused .range) ∧
      (0 ≤ d → d ≤ 2147483647 → arms target 0) ∧
      (-2147418112 ≤ d → d < 0 →
        (a.late = .fire → arms target 0) ∧
        (a.late = .skip → a.period ≠ 0 → arms (firstGridPoint target s.time.count a.period) 1) ∧
        (a.late = .skip → a.period = 0 → refused .lateSkipped) ∧
        (a.late = .refuse → refused .late)))

/-! ### The firing -/

/-- A firing touches the entries, the lists, the levels, indices and positions of the lines, and the notices alone; with
the action NONE it leaves the lines as they were. Of a trigger only the park list may change. The line claims and drives
and every group's mode, table, step size and limits are kept; the entry's owner, tag, repeat, late policy, notify,
delay, chain, trigger and repark are kept, and its staged record is absent; entries other than it and its chain target
are kept. The record of how far a due was past (log 9) is new for the entries the firing arms, and kept for the others.
With no due head, or while the part is frozen, nothing fires (log 2). The link is settled last (log 25): a marker that
the firing requests on a ready line begins within it. -/
def Obligations.FireFrame : Prop :=
  (∀ s : State, (∀ e a due, ¬ Fires s e a due) → exec .fire s = .next s) ∧
  ∀ (s : State) (e : EntryId) (a : Entry) (due : Word), Fires s e a due →
    ∃ t : State, exec .fire s = .next t.settleLink ∧
      t = { s with entries := t.entries, dueList := t.dueList, armedPast := t.armedPast, triggers := t.triggers
                   lines := t.lines, notices := t.notices } ∧
      (∀ x d, x = e ∨ s.dueOf x = none → t.dueOf x = some d → t.armedPast.get x = ticksPast d s.time.count) ∧
      (∀ x, x ≠ e ∧ s.dueOf x ≠ none ∨ t.dueOf x = none → t.armedPast.get x = s.armedPast.get x) ∧
      (∀ k, t.triggers.get k = { s.triggers.get k with park := (t.triggers.get k).park }) ∧
      (a.action = .none → t.lines = s.lines) ∧
      t.lines.drives = s.lines.drives ∧ t.lines.lineClaims = s.lines.lineClaims ∧
      t.lines.triggerClaims = s.lines.triggerClaims ∧
      (∀ g, t.lines.groups.get g =
        { s.lines.groups.get g with index := (t.lines.groups.get g).index
                                    position := (t.lines.groups.get g).position }) ∧
      (∃ b : Entry, t.entry e = some
        { a with
          state := b.state, left := b.left, period := a.staged.period.getD a.period
          action := a.staged.action.getD a.action, staged := { period := none, action := none } }) ∧
      (∀ x, x ≠ e → a.chain ≠ some x → t.entry x = s.entry x) ∧
      t.notices = { s.notices with queues := t.notices.queues, marker := t.notices.marker } ∧
      t.notices.queues.get a.owner.other = s.notices.queues.get a.owner.other

/-- A line action delivered by a firing makes the level of its line 1, 0 or the opposite; the drives and the other
fifteen levels are not touched, and the action is never refused. The pin of a line shows its level while its drive is
ON, and is high-impedance while it is OFF. -/
def Obligations.LineAction : Prop :=
  ∀ (s : State) (e : EntryId) (a : Entry) (due : Word) (op : LineOp) (l : Fin 16), Fires s e a due →
    a.action = .line op l →
    ∃ t : State, exec .fire s = .next t ∧ t.lines = { s.lines with levels := t.lines.levels } ∧
      t.lines.levels.getLsbD l.val =
        (match op with
          | .set => true
          | .clear => false
          | .toggle => !s.lines.levels.getLsbD l.val) ∧
      (∀ m : Fin 16, t.lines.pin m =
        if s.lines.drives.getLsbD m.val then some (t.lines.levels.getLsbD m.val) else none) ∧
      ∀ m : Fin 16, m ≠ l → t.lines.levels.getLsbD m.val = s.lines.levels.getLsbD m.val

/-- A step within the limits moves the position by one and the index by the step size, both with wrapping, and the four
levels take the pattern at the new index; one beyond present limits is not taken and stops the entry: IDLE without
repark, left kept, and LIMIT forces the notice. -/
def Obligations.StepAction : Prop :=
  ∀ (s : State) (e : EntryId) (a : Entry) (due : Word) (g : Fin 4) (forward : Bool), Fires s e a due →
    a.action = (if forward then .stepFwd g else .stepRev g) → (s.lines.groups.get g).mode = .sequence →
    let group := s.lines.groups.get g
    let position := if forward then group.position + 1 else group.position - 1
    let size : BitVec 3 := if group.step = .one then 1 else 2
    let index := if forward then group.index + size else group.index - size
    ∃ t : State, exec .fire s = .next t ∧
      (withinLimits group.limits position = true →
        t.lines.groups.get g = { group with position := position, index := index } ∧
        groupLevels t.lines.levels g = group.table.get ⟨index.toNat, index.isLt⟩ ∧
        ∀ h, h ≠ g → t.lines.groups.get h = s.lines.groups.get h ∧
          groupLevels t.lines.levels h = groupLevels s.lines.levels h) ∧
      (withinLimits group.limits position = false →
        t.lines = s.lines ∧
        (a.chain ≠ some e → ∃ b, t.entry e = some b ∧ b.state = .idle ∧ b.left = a.left) ∧
        ∃ r, entryReport e (t.notices.queues.get a.owner) = some r ∧ r.flags.limit = true ∧ r.lastDue = due)

/-- A LOAD_PHASE delivered by a firing sets the index, and the four levels take the pattern at it; the position is not
changed and the limits are not consulted. -/
def Obligations.LoadPhaseAction : Prop :=
  ∀ (s : State) (e : EntryId) (a : Entry) (due : Word) (g : Fin 4) (index : BitVec 3), Fires s e a due →
    a.action = .loadPhase g index → (s.lines.groups.get g).mode = .sequence →
    ∃ t : State, exec .fire s = .next t ∧
      t.lines.groups.get g = { s.lines.groups.get g with index := index } ∧
      groupLevels t.lines.levels g = (s.lines.groups.get g).table.get ⟨index.toNat, index.isLt⟩ ∧
      ∀ h, h ≠ g → t.lines.groups.get h = s.lines.groups.get h ∧
        groupLevels t.lines.levels h = groupLevels s.lines.levels h

/-- A one-shot firing with no step refused completes the entry with left kept: at the tail of its park list when repark
is on, IDLE when it is off. A periodic firing that brings left to 0 completes it in the same way, with left 0. ENDED
joins the flags of the entry's notice unless repeat is 0. -/
def Obligations.FireCompletes : Prop :=
  ∀ (s : State) (e : EntryId) (a : Entry) (due : Word), Fires s e a due → ¬ stepRefused s a → a.chain ≠ some e →
    let period := a.staged.period.getD a.period
    (period = 0 ∨ (a.reps ≠ 0 ∧ a.left = 1)) →
    ∃ t b, exec .fire s = .next t ∧ t.entry e = some b ∧ b.left = (if period = 0 then a.left else 0) ∧
      e ∉ t.dueList ∧ (a.chain = none → t.dueList = s.dueList.filter (· ≠ e)) ∧
      (a.repark = false → b.state = .idle) ∧
      (∀ k, a.repark = true → a.trigger = some k →
        b.state = .parked ∧ (t.triggers.get k).park.getLast? = some e ∧
        (a.chain = none → (t.triggers.get k).park = (s.triggers.get k).park.filter (· ≠ e) ++ [e])) ∧
      (a.notify = true → ∃ r, entryReport e (t.notices.queues.get a.owner) = some r ∧
        r.flags.ended = ((s.reportedFlags a.owner e).ended || decide (a.reps ≠ 0)))

/-- A periodic firing that leaves firings to come re-arms the entry at the fired due plus the period, or, when that is
past, at the first grid point now or ahead under FIRE and SKIP, with SKIPPED in its notice, and stops it in IDLE under
REFUSE, with STOPPED in a forced notice. Left is decremented unless repeat is 0. ENDED is not raised. -/
def Obligations.FireRearms : Prop :=
  ∀ (s : State) (e : EntryId) (a : Entry) (due : Word), Fires s e a due → ¬ stepRefused s a → a.chain ≠ some e →
    let period := a.staged.period.getD a.period
    let next := due + period
    let left := if a.reps = 0 then a.left else a.left - 1
    let prior := s.reportedFlags a.owner e
    period ≠ 0 → (a.reps = 0 ∨ a.left ≠ 1) →
    ∃ t b, exec .fire s = .next t ∧ t.entry e = some b ∧ b.left = left ∧
      (0 ≤ difference next s.time.count → b.state = .armed next ∧ e ∈ t.dueList ∧
        (a.notify = true → a.chain = none → ∃ r, entryReport e (t.notices.queues.get a.owner) = some r ∧
          r.flags.skipped = prior.skipped ∧ r.flags.stopped = prior.stopped)) ∧
      (difference next s.time.count < 0 → a.late ≠ .refuse →
        b.state = .armed (firstGridPoint due s.time.count period) ∧ e ∈ t.dueList ∧
        (a.notify = true → ∃ r, entryReport e (t.notices.queues.get a.owner) = some r ∧ r.flags.skipped = true)) ∧
      (difference next s.time.count < 0 → a.late = .refuse →
        b.state = .idle ∧ e ∉ t.dueList ∧
        ∃ r, entryReport e (t.notices.queues.get a.owner) = some r ∧ r.flags.stopped = true) ∧
      (a.notify = true → ∃ r, entryReport e (t.notices.queues.get a.owner) = some r ∧ r.flags.ended = prior.ended)

/-- A firing whose chain names another entry, IDLE or PARKED, arms it at the fired due plus its delay with left at
repeat; when that is past, its own late policy decides, and a target left unarmed adds SKIPPED or STOPPED to the firing
entry's notice. An ARMED or HELD one is not changed and adds CHAIN_BUSY. An entry chained to itself is seen as stage 3
left it: re-armed, it sets CHAIN_BUSY; completed or stopped, it is armed again in the same way. -/
def Obligations.FireChain : Prop :=
  (∀ (s : State) (e : EntryId) (a : Entry) (due : Word), Fires s e a due → a.chain = some e →
    let period := a.staged.period.getD a.period
    let next := due + period
    let target := due + a.delay
    let now := s.time.count
    let late := difference target now < 0
    let rearms := ¬ stepRefused s a ∧ period ≠ 0 ∧ (a.reps = 0 ∨ a.left ≠ 1) ∧
      (0 ≤ difference next now ∨ a.late ≠ .refuse)
    ∃ t b, exec .fire s = .next t ∧ t.entry e = some b ∧
      (rearms → b.state = .armed (if 0 ≤ difference next now then next else firstGridPoint due now period) ∧
        (a.notify = true → ∃ r, entryReport e (t.notices.queues.get a.owner) = some r ∧ r.flags.chainBusy = true)) ∧
      (¬ rearms →
        (¬ late ∨ a.late = .fire → b.state = .armed target ∧ b.left = a.reps ∧ e ∈ t.dueList ∧
          ∀ k, e ∉ (t.triggers.get k).park) ∧
        (late → a.late = .skip → period ≠ 0 →
          b.state = .armed (firstGridPoint target now period) ∧ b.left = a.reps ∧ e ∈ t.dueList) ∧
        (late → a.late = .skip → period = 0 → e ∉ t.dueList ∧ (b.state = .idle ∨ b.state = .parked) ∧
          (a.notify = true → ∃ r, entryReport e (t.notices.queues.get a.owner) = some r ∧ r.flags.skipped = true)) ∧
        (late → a.late = .refuse → e ∉ t.dueList ∧ (b.state = .idle ∨ b.state = .parked) ∧
          (a.notify = true → ∃ r, entryReport e (t.notices.queues.get a.owner) = some r ∧ r.flags.stopped = true)))) ∧
  ∀ (s : State) (e x : EntryId) (a b : Entry) (due : Word), Fires s e a due → a.chain = some x → x ≠ e →
    s.entry x = some b →
    let target := due + b.delay
    let late := difference target s.time.count < 0
    ∃ t, exec .fire s = .next t ∧
      ((∃ w, b.state = .armed w ∨ b.state = .held w) → t.entry x = some b ∧
        (a.notify = true → ∃ r, entryReport e (t.notices.queues.get a.owner) = some r ∧ r.flags.chainBusy = true)) ∧
      (b.state = .idle ∨ b.state = .parked →
        (¬ late ∨ b.late = .fire → t.entry x = some { b with state := .armed target, left := b.reps } ∧
          x ∈ t.dueList ∧ ∀ k, x ∉ (t.triggers.get k).park) ∧
        (late → b.late = .skip → b.period ≠ 0 →
          t.entry x = some { b with state := .armed (firstGridPoint target s.time.count b.period), left := b.reps } ∧
          x ∈ t.dueList ∧ ∀ k, x ∉ (t.triggers.get k).park) ∧
        (late → b.late = .skip → b.period = 0 → t.entry x = some b ∧
          (a.notify = true → ∃ r, entryReport e (t.notices.queues.get a.owner) = some r ∧ r.flags.skipped = true)) ∧
        (late → b.late = .refuse → t.entry x = some b ∧
          (a.notify = true → ∃ r, entryReport e (t.notices.queues.get a.owner) = some r ∧ r.flags.stopped = true)))

/-- A firing with notify on posts to its owner's queue: an item that stands is updated in its place with its count one
more, up to 65535, the union of flags, the due fired and the tag; else one with count 1 joins at the tail. LATE is among
the flags exactly when the due fired was past. A posting that makes the link queue non-empty from empty with link
signalling on makes the marker request pending. With notify off and nothing forced (no step refused, and no periodic
entry with firings to come stopped under REFUSE), the notices are kept. The link is then settled (R171; log 25). -/
def Obligations.FirePosts : Prop :=
  ∀ (s : State) (e : EntryId) (a : Entry) (due : Word), Fires s e a due →
    ∃ t : State, exec .fire s = .next t.settleLink ∧
      (a.notify = true →
        let q := s.notices.queues.get a.owner
        (∃ flags : EntryFlags, flags.late = decide (difference due s.time.count < 0) ∧
          ((∀ i ∈ q, i.reports e = false) →
            t.notices.queues.get a.owner =
              q ++ [.entry e { tag := a.tag, count := 1, flags := flags, lastDue := due }]) ∧
          ∀ before after r, q = before ++ .entry e r :: after → (∀ i ∈ before ++ after, i.reports e = false) →
            let count : BitVec 16 := if r.count = 0xFFFF then 0xFFFF else r.count + 1
            t.notices.queues.get a.owner =
              before ++ .entry e { tag := a.tag, count := count, flags := r.flags.union flags, lastDue := due } ::
                after) ∧
        t.notices.marker = (s.notices.marker || decide (a.owner = .link ∧ q = [] ∧ s.notices.signalling.link = true))) ∧
      (a.notify = false → ¬ stepRefused s a →
        (a.late ≠ .refuse ∨ a.staged.period.getD a.period = 0 ∨ (a.reps ≠ 0 ∧ a.left = 1) ∨
          0 ≤ difference (due + a.staged.period.getD a.period) s.time.count) → t.notices = s.notices)

/-! ### The line unit -/

/-- CLAIM claims every line and trigger of its masks for the issuing port, or, if the other port claims one, none, and
is refused with CLAIMED. RELEASE refuses NOT_CLAIMED, then IN_USE; else it sets those claims to none, and the triggers
become unconfigured with level and park list kept. SET_LINES refuses RANGE, STATE and NOT_CLAIMED in that order; else
it writes level and drive of the lines of its mask and of no others. -/
def Obligations.LineCommands : Prop :=
  ∀ (c : Cmd) (s : State) (l0 l1 : Byte),
    let p := c.src.port
    let lines := le16 l0 l1
    (∀ ks : Byte, c.body = [l0, l1, ks] →
      (s.takes 0x30 c = true →
        let blocked := (∃ l : Fin 16, lines.getLsbD l.val = true ∧ s.lines.lineClaims.get l = some p.other) ∨
          ∃ k : Fin 8, ks.getLsbD k.val = true ∧ s.lines.triggerClaims.get k = some p.other
        (blocked → exec (.claim c) s = refusedNext 0x30 c .claimed s) ∧
        (¬ blocked → ∃ u : LineUnit, exec (.claim c) s = okNext 0x30 c [] { during s c with lines := u } ∧
          u = { s.lines with lineClaims := u.lineClaims, triggerClaims := u.triggerClaims } ∧
          (∀ l : Fin 16, u.lineClaims.get l = if lines.getLsbD l.val then some p else s.lines.lineClaims.get l) ∧
          ∀ k : Fin 8, u.triggerClaims.get k = if ks.getLsbD k.val then some p else s.lines.triggerClaims.get k)) ∧
      (s.takes 0x31 c = true →
        let held := (∀ l : Fin 16, lines.getLsbD l.val = true → s.lines.lineClaims.get l = some p) ∧
          ∀ k : Fin 8, ks.getLsbD k.val = true → s.lines.triggerClaims.get k = some p
        let needed := (∃ e a, s.entry e = some a ∧ a.owner = p ∧ a.needs lines ks = true) ∨
          ∃ k : Fin 8, ks.getLsbD k.val = true ∧ (s.triggers.get k).park ≠ []
        (¬ held → exec (.release c) s = refusedNext 0x31 c .notClaimed s) ∧
        (held → needed → exec (.release c) s = refusedNext 0x31 c .inUse s) ∧
        (held → ¬ needed → ∃ t : State, exec (.release c) s = okNext 0x31 c [] t ∧
          t = { during s c with
                triggers := t.triggers
                lines := { s.lines with
                           lineClaims := t.lines.lineClaims
                           triggerClaims := t.lines.triggerClaims } } ∧
          (∀ l : Fin 16,
            t.lines.lineClaims.get l = if lines.getLsbD l.val then none else s.lines.lineClaims.get l) ∧
          (∀ k : Fin 8,
            t.lines.triggerClaims.get k = if ks.getLsbD k.val then none else s.lines.triggerClaims.get k) ∧
          ∀ k : Fin 8, t.triggers.get k =
            if ks.getLsbD k.val then
              { edge := .none, mode := .one, capture := none, count := 0, level := (s.triggers.get k).level
                sample := (s.triggers.get k).sample, park := [] }
            else s.triggers.get k))) ∧
    ∀ v0 v1 d0 d1 : Byte, c.body = [l0, l1, v0, v1, d0, d1] → s.takes 0x32 c = true →
      let outside := ∃ l : Fin 16, lines.getLsbD l.val = false ∧
        ((le16 v0 v1).getLsbD l.val = true ∨ (le16 d0 d1).getLsbD l.val = true)
      let sequenced := ∃ l : Fin 16, lines.getLsbD l.val = true ∧ (s.lines.groups.get (groupOf l)).mode = .sequence
      let claimed := ∀ l : Fin 16, lines.getLsbD l.val = true → s.lines.lineClaims.get l = some p
      (outside → exec (.setLines c) s = refusedNext 0x32 c .range s) ∧
      (¬ outside → sequenced → exec (.setLines c) s = refusedNext 0x32 c .state s) ∧
      (¬ outside → ¬ sequenced → ¬ claimed → exec (.setLines c) s = refusedNext 0x32 c .notClaimed s) ∧
      (¬ outside → ¬ sequenced → claimed → ∃ levels drives : BitVec 16,
        exec (.setLines c) s =
          okNext 0x32 c [] { during s c with lines := { s.lines with levels := levels, drives := drives } } ∧
        ∀ l : Fin 16,
          levels.getLsbD l.val =
            (if lines.getLsbD l.val then (le16 v0 v1).getLsbD l.val else s.lines.levels.getLsbD l.val) ∧
          drives.getLsbD l.val =
            (if lines.getLsbD l.val then (le16 d0 d1).getLsbD l.val else s.lines.drives.getLsbD l.val))

/-- GROUP_MODE, LOAD_PHASES, SET_GROUP and SET_LIMITS refuse with RANGE a body out of their ranges, and with NOT_CLAIMED
a group the issuing port does not claim. GROUP_MODE is refused with IN_USE while an entry's action or staged action bars
the mode. What is taken changes its field of the one group, and no other; the four levels follow a change of mode to
SEQUENCE, and a change of table or index in SEQUENCE mode. SET_GROUP refuses a position outside present limits, and
SET_LIMITS limits that exclude the position, with RANGE. -/
def Obligations.GroupCommands : Prop :=
  (∀ (c : Cmd) (s : State),
    (s.takes 0x33 c = true → c.body.length = 2 → (∀ g m, c.body ≠ groupModeBytes g m) →
      exec (.groupMode c) s = refusedNext 0x33 c .range s) ∧
    (s.takes 0x34 c = true → c.body.length = 9 → (∀ g table, c.body ≠ loadPhasesBytes g table) →
      exec (.loadPhases c) s = refusedNext 0x34 c .range s) ∧
    (s.takes 0x35 c = true → c.body.length = 8 → (∀ g w, c.body ≠ setGroupBytes g w) →
      exec (.setGroup c) s = refusedNext 0x35 c .range s) ∧
    (s.takes 0x36 c = true → c.body.length = 10 →
      (∀ g limits, (∀ m, limits = some m → m.min.toInt ≤ m.max.toInt) → c.body ≠ setLimitsBytes g limits) →
      exec (.setLimits c) s = refusedNext 0x36 c .range s)) ∧
  ∀ (i : Instr) (code : Byte) (c : Cmd) (s : State) (g : Fin 4) (new : Group) (moves : Bool) (bad : Option Result),
    s.takes code c = true →
    let group := s.lines.groups.get g
    ((∃ m : GroupMode, i = .groupMode c ∧ code = 0x33 ∧ c.body = groupModeBytes g m ∧
        new = { group with mode := m } ∧ moves = true ∧
        ((∃ e a, s.entry e = some a ∧ a.bars g m = true) ∧ bad = some .inUse ∨
          (∀ e a, s.entry e = some a → a.bars g m = false) ∧ bad = none)) ∨
      (∃ table : Vector (BitVec 4) 8, i = .loadPhases c ∧ code = 0x34 ∧ c.body = loadPhasesBytes g table ∧
        new = { group with table := table } ∧ moves = true ∧ bad = none) ∨
      (∃ w : GroupWrite, i = .setGroup c ∧ code = 0x35 ∧ c.body = setGroupBytes g w ∧
        new = { group with
                index := w.index.getD group.index
                position := w.position.getD group.position
                step := w.step.getD group.step } ∧
        moves = w.index.isSome ∧
        bad = if w.position.isSome ∧ withinLimits group.limits new.position = false then some .range else none) ∨
      (∃ limits : Option Limits, i = .setLimits c ∧ code = 0x36 ∧
        (∀ m, limits = some m → m.min.toInt ≤ m.max.toInt) ∧ c.body = setLimitsBytes g limits ∧
        new = { group with limits := limits } ∧ moves = false ∧
        bad = if withinLimits limits group.position = false then some .range else none)) →
    (s.lines.claimsGroup c.src.port g = false → exec i s = refusedNext code c .notClaimed s) ∧
    (s.lines.claimsGroup c.src.port g = true →
      (∀ r, bad = some r → exec i s = refusedNext code c r s) ∧
      (bad = none → ∃ levels groups,
        exec i s = okNext code c [] { during s c with lines := { s.lines with levels := levels, groups := groups } } ∧
        groups.get g = new ∧ (∀ h, h ≠ g → groups.get h = s.lines.groups.get h) ∧
        ∀ h, groupLevels levels h =
          if h = g ∧ moves = true ∧ new.mode = .sequence then new.table.get ⟨new.index.toNat, new.index.isLt⟩
          else groupLevels s.lines.levels h))

/-- READ_LINES answers levels, drives, claims and a summary of each group, or the record of one group, changes nothing,
and refuses a group above 3 with RANGE. -/
def Obligations.ReadLines : Prop :=
  ∀ (c : Cmd) (s : State), s.takes 0x37 c = true →
    let u := s.lines
    let pack := fun (a b d e : Option Port) =>
      BitVec.ofNat 8 (claimNat a + 4 * claimNat b + 16 * claimNat d + 64 * claimNat e)
    let summary := fun (g : Group) (b : Byte) =>
      b.getLsbD 0 = decide (g.mode = .sequence) ∧ b.getLsbD 1 = decide (g.step = .two) ∧
        b.getLsbD 2 = g.limits.isSome ∧ b.getLsbD 3 = false ∧ b.extractLsb' 4 3 = g.index ∧ b.getLsbD 7 = false
    (c.body = [] → ∃ b0 b1 b2 b3 : Byte,
      exec (.readLines c) s =
        okNext 0x37 c
          (bytes16 u.levels ++ bytes16 u.drives ++
            [pack (u.lineClaims.get 0) (u.lineClaims.get 1) (u.lineClaims.get 2) (u.lineClaims.get 3),
             pack (u.lineClaims.get 4) (u.lineClaims.get 5) (u.lineClaims.get 6) (u.lineClaims.get 7),
             pack (u.lineClaims.get 8) (u.lineClaims.get 9) (u.lineClaims.get 10) (u.lineClaims.get 11),
             pack (u.lineClaims.get 12) (u.lineClaims.get 13) (u.lineClaims.get 14) (u.lineClaims.get 15),
             pack (u.triggerClaims.get 0) (u.triggerClaims.get 1) (u.triggerClaims.get 2) (u.triggerClaims.get 3),
             pack (u.triggerClaims.get 4) (u.triggerClaims.get 5) (u.triggerClaims.get 6) (u.triggerClaims.get 7),
             b0, b1, b2, b3]) (during s c) ∧
      summary (u.groups.get 0) b0 ∧ summary (u.groups.get 1) b1 ∧ summary (u.groups.get 2) b2 ∧
      summary (u.groups.get 3) b3) ∧
    (∀ b : Byte, c.body = [b] → 3 < b.toNat → exec (.readLines c) s = refusedNext 0x37 c .range s) ∧
    ∀ g : Fin 4, c.body = [BitVec.ofNat 8 g.val] → ∃ b : Byte,
      let group := u.groups.get g
      exec (.readLines c) s =
        okNext 0x37 c
          ([BitVec.ofNat 8 g.val, b, group.table.get 1 ++ group.table.get 0, group.table.get 3 ++ group.table.get 2,
            group.table.get 5 ++ group.table.get 4, group.table.get 7 ++ group.table.get 6] ++
            bytes32 group.position ++
            (match group.limits with
              | some m => bytes32 m.min ++ bytes32 m.max
              | none => bytes32 0 ++ bytes32 0)) (during s c) ∧
      summary group b

/-! ### The triggers -/

/-- The sampled level of a trigger changes when two successive samples both show the opposite level, and the change is
the edge; samples with no such two leave the level as it was, a shorter pulse is not seen, and the last sample is kept
for the next. Every edge flips the sampled level. One that matches the selection while the part is not frozen captures
the time count, is counted up to 255, and takes the head of the park list (ONE) or every entry (ALL) from it, armed at
the capture plus its delay with left at repeat; any other changes nothing more. In the due list the armed entries stand
in park-list order where their dues are equal, and behind the entries that held that due already. The model's choice:
the samples are the operand (log 5), samples that make an edge before the last of them do not arise as one (log 2), and
how far the due of an armed entry is past is recorded (log 9).
-/
def Obligations.TriggerEdge : Prop :=
  ∀ (s : State) (k : Fin 8) (samples : List Bool), s.phase = .running → ListLaw s →
    let r := s.triggers.get k
    let seen := r.sample :: samples
    let edge := fun (xs : List Bool) => ∃ before after, xs = before ++ (!r.level) :: (!r.level) :: after
    let now := s.time.count
    let matching := r.edge = .both ∨ (r.edge = .rising ∧ r.level = false) ∨ (r.edge = .falling ∧ r.level = true)
    let armed := if matching ∧ s.time.frozen = false then
      (match r.mode with
        | .one => r.park.take 1
        | .all => r.park) else []
    (¬ edge seen → exec (.triggerEdge k samples) s =
      .next { s with triggers := s.triggers.set k.val { r with sample := samples.getLastD r.sample } k.isLt }) ∧
    (edge seen.dropLast → exec (.triggerEdge k samples) s = .next s) ∧
    (edge seen → ¬ edge seen.dropLast → ∃ t : State, exec (.triggerEdge k samples) s = .next t ∧
      t = { s with
            entries := t.entries, dueList := t.dueList, armedPast := t.armedPast, triggers := t.triggers } ∧
      (∀ e, e ∉ armed → t.armedPast.get e = s.armedPast.get e) ∧
      (∀ e a, e ∈ armed → s.entry e = some a → t.armedPast.get e = ticksPast (now + a.delay) now) ∧
      (∀ j, j ≠ k → t.triggers.get j = s.triggers.get j) ∧
      t.triggers.get k =
        (if matching ∧ s.time.frozen = false then
          { r with
            level := !r.level, sample := !r.level, capture := some now, count := if r.count = 255 then 255 else r.count + 1
            park := r.park.drop armed.length }
        else { r with level := !r.level, sample := !r.level }) ∧
      (∀ e, e ∉ armed → t.entry e = s.entry e) ∧
      (∀ e a, e ∈ armed → s.entry e = some a →
        t.entry e = some { a with state := .armed (now + a.delay), left := a.reps }) ∧
      (∀ e, e ∈ t.dueList ↔ e ∈ s.dueList ∨ e ∈ armed) ∧
      (∀ e f, [e, f].Sublist armed → t.keyOf e = t.keyOf f → [e, f].Sublist t.dueList) ∧
      (DueOrder s → ∀ x ∈ s.dueList, ∀ e ∈ armed, t.keyOf x = t.keyOf e → [x, e].Sublist t.dueList))

/-- TRIGGER_CONFIG sets edge selection and park mode of a trigger the issuing port claims and refuses NOT_CLAIMED for
any other; READ_TRIGGER answers capture, count, level and park list length, and zeroes the count for the claim holder.
A trigger above 7 is RANGE in both. -/
def Obligations.TriggerCommands : Prop :=
  ∀ (c : Cmd) (s : State) (b : Byte) (rest : List Byte), c.body = b :: rest →
    (7 < b.toNat →
      (s.takes 0x40 c = true → rest.length = 2 → exec (.triggerConfig c) s = refusedNext 0x40 c .range s) ∧
      (s.takes 0x41 c = true → rest = [] → exec (.readTrigger c) s = refusedNext 0x41 c .range s)) ∧
    ∀ k : Fin 8, b = BitVec.ofNat 8 k.val →
      let r := s.triggers.get k
      let become := fun (x : Trigger) => { during s c with triggers := s.triggers.set k.val x k.isLt }
      (s.takes 0x40 c = true → ∀ x m : Byte, rest = [x, m] →
        (3 < x.toNat ∨ 1 < m.toNat → exec (.triggerConfig c) s = refusedNext 0x40 c .range s) ∧
        ∀ (edge : EdgeSelection) (mode : ParkMode),
          x = (match edge with
            | .none => 0
            | .rising => 1
            | .falling => 2
            | .both => 3) → m = (if mode = .one then 0 else 1) →
          (s.lines.triggerClaims.get k ≠ some c.src.port →
            exec (.triggerConfig c) s = refusedNext 0x40 c .notClaimed s) ∧
          (s.lines.triggerClaims.get k = some c.src.port →
            exec (.triggerConfig c) s = okNext 0x40 c [] (become { r with edge := edge, mode := mode }))) ∧
      (s.takes 0x41 c = true → rest = [] → ∃ f : Byte,
        exec (.readTrigger c) s =
          okNext 0x41 c ([b, f] ++ bytes32 (r.capture.getD 0) ++ [r.count] ++ bytesCount r.park.length)
            (become { r with count := if s.lines.triggerClaims.get k = some c.src.port then 0 else r.count }) ∧
        f.getLsbD 0 = r.capture.isSome ∧ f.getLsbD 1 = r.level ∧ f.extractLsb' 2 6 = 0)

/-! ### Notices -/

/-- TAKE of 1 to 3 items answers the head records and removes them, unless the part is frozen and the port's
consume-in-freeze is off: then they stay and FLAGS bit 1 is set. A link TAKE that leaves items with signalling on raises
the marker request, and one that empties the queue withdraws it. NOTICE_CONFIG sets the issuing port's two settings;
turning link signalling on over a queue with items raises the request, turning it off withdraws it. NOTICE0 is asserted
while the SPI queue holds an item and SPI signalling is on. -/
def Obligations.NoticeCommands : Prop :=
  ∀ (c : Cmd) (s : State),
    let p := c.src.port
    let n := s.notices
    n.notice0 = decide (n.queues.spi ≠ [] ∧ n.signalling.spi = true) ∧
    (∀ b : Byte, s.takes 0x20 c = true → c.body = [b] →
      (b = 0 ∨ 3 < b.toNat → exec (.takeNotices c) s = refusedNext 0x20 c .range s) ∧
      (1 ≤ b.toNat → b.toNat ≤ 3 →
        let items := (n.queues.get p).take b.toNat
        let keeps := s.time.frozen && !n.consume.get p
        ∃ m : NoticeUnit,
          exec (.takeNotices c) s =
            .next (Answer.finish 0x20 c
              { result := .ok, body := BitVec.ofNat 8 items.length :: items.flatMap noticeRecord, overwrote := false
                notConsumed := keeps, state := { during s c with notices := m } }) ∧
          m = { n with queues := m.queues, marker := m.marker } ∧
          m.queues.get p = (if keeps then n.queues.get p else (n.queues.get p).drop b.toNat) ∧
          m.queues.get p.other = n.queues.get p.other ∧
          (p = .spi → m.marker = n.marker) ∧
          (p = .link → m.queues.link ≠ [] → m.marker = (n.marker || n.signalling.link)) ∧
          (p = .link → m.queues.link = [] → keeps = false → m.marker = false))) ∧
    ∀ x y : Byte, s.takes 0x21 c = true → c.body = [x, y] →
      (1 < x.toNat ∨ 1 < y.toNat → exec (.noticeConfig c) s = refusedNext 0x21 c .range s) ∧
      (x.toNat ≤ 1 → y.toNat ≤ 1 → ∃ m : NoticeUnit,
        exec (.noticeConfig c) s = okNext 0x21 c [] { during s c with notices := m } ∧
        m.queues = n.queues ∧ m.signalling.get p = decide (x = 1) ∧ m.consume.get p = decide (y = 1) ∧
        m.signalling.get p.other = n.signalling.get p.other ∧ m.consume.get p.other = n.consume.get p.other ∧
        (p = .spi → m.marker = n.marker) ∧
        (p = .link → x = 0 → m.marker = false) ∧
        (p = .link → x = 1 → m.marker = (n.marker || (!n.signalling.link && !n.queues.link.isEmpty))))

/-! ### The time base -/

/-- Cycles of the selected clock, while the part runs and nothing holds the count, raise the prescaler count; the one
that completes 2^k makes the tick, which advances the count by one with wrapping, restarts the prescaler and brings a
pending exponent into force. While the part is frozen, in a changeover or in a hold, no cycle is counted and no tick
occurs. No tick comes before the engine has fired an entry whose wait, from when it became due or was armed, the tick
would bring to 2^16 ticks (R27), nor before one whose due it would carry round. The model's choices: such a tick waits
for the FIRE (log 9), and a TICK of more cycles than complete 2^k does not arise (log 1, log 2). -/
def Obligations.Tick : Prop :=
  ∀ (s : State) (n : Nat), s.phase = .running →
    let k := 2 ^ s.time.exponent.toNat
    (s.time.frozen = true ∨ s.time.changeover ≠ none ∨ s.time.hold = true → exec (.tick n) s = .next s) ∧
    (s.time.frozen = false → s.time.changeover = none → s.time.hold = false →
      (s.time.prescaler + n < k →
        exec (.tick n) s = .next { s with time := { s.time with prescaler := s.time.prescaler + n } }) ∧
      (s.time.prescaler + n = k → (∀ e ∈ s.dueList, s.waited e < 65535 ∧ s.keyOf e ≠ Config.mostPast) →
        exec (.tick n) s = .next { s with time := { s.time with
          count := s.time.count + 1, prescaler := 0
          exponent := s.time.pendingExponent.getD s.time.exponent, pendingExponent := none } }) ∧
      (s.time.prescaler + n = k → (∃ e ∈ s.dueList, 65535 ≤ s.waited e ∨ s.keyOf e = Config.mostPast) →
        exec (.tick n) s = .next s) ∧
      (k < s.time.prescaler + n → exec (.tick n) s = .next s))

/-- Lock gained, in ACQUIRING or UNLOCKED with the product in the band of L and at most 100 MHz, leads to LOCKED, ends
a hold and posts LOCK_GAINED, with HOLD_ENDED for a hold. Lock lost, in LOCKED, leads to UNLOCKED and posts LOCK_LOST:
it abandons a changeover to SYNTH, and with SYNTH selected and none in flight falls back or holds by the policy. The
model's choices: the band includes both ends (log 12); a pending exponent stays pending at an abandoned changeover
(log 19); in a state in which R107 says the event does not arise nothing changes (log 2). -/
def Obligations.LockEvents : Prop :=
  ∀ (s : State) (fRef : Nat), s.phase = .running →
    let t := s.time
    let product := fRef * (if t.n = 0 then 1 else t.n.toNat)
    let band := t.l.toNat * 6000000 ≤ product ∧ product ≤ t.l.toNat * 12000000 ∧ product ≤ 100000000
    (¬ ((t.synth = .acquiring ∨ t.synth = .unlocked) ∧ band) → exec (.lockGained fRef) s = .next s) ∧
    ((t.synth = .acquiring ∨ t.synth = .unlocked) → band →
      exec (.lockGained fRef) s =
        .next ({ s with time := { t with synth := .locked, hold := false } }.postTime
          { lockGained := true, holdEnded := t.hold })) ∧
    (t.synth ≠ .locked → exec .lockLost s = .next s) ∧
    (t.synth = .locked →
      (t.source = .ref → ∃ c, exec .lockLost s =
          .next ({ s with time := { t with synth := .unlocked, changeover := c } }.postTime { lockLost := true }) ∧
        (∀ k, t.changeover = some ⟨.synth, k⟩ → c = none) ∧
        ((∀ k, t.changeover ≠ some ⟨.synth, k⟩) → c = t.changeover)) ∧
      (t.source = .synth → t.changeover ≠ none →
        exec .lockLost s =
          .next ({ s with time := { t with synth := .unlocked } }.postTime { lockLost := true })) ∧
      (t.source = .synth → t.changeover = none → t.policy = .fallback →
        exec .lockLost s =
          .next ({ s with time := { t with synth := .unlocked, changeover := some ⟨.ref, .fallback⟩ } }.postTime
            { lockLost := true, fellBack := true })) ∧
      (t.source = .synth → t.changeover = none → t.policy = .hold →
        exec .lockLost s =
          .next ({ s with time := { t with synth := .unlocked, hold := true } }.postTime
            { lockLost := true, holdBegun := true })))

/-- A changeover that completes selects its target, restarts the prescaler, brings a pending exponent into force, ends a
hold and posts CHANGED_OVER, with HOLD_ENDED for a hold; one to SYNTH completes only in LOCKED. The sampled level of the
FREEZE pin flips when two successive samples both show the opposite level, and samples with no such two leave it. A
TIMEBASE posting goes to the SPI queue: its item gains one in count, up to 65535, and the flags; or it joins at the tail
with count 1. The model's choice: a completion with no changeover in flight, or with one to SYNTH out of LOCKED, does
not arise and changes nothing, and neither do samples that flip the level before the last of them (log 2), which are the
operand (log 5). -/
def Obligations.ChangeoverFreezePin : Prop :=
  ∀ (s : State) (samples : List Bool), s.phase = .running →
    (∀ target kind, s.time.changeover = some ⟨target, kind⟩ → target = .ref ∨ s.time.synth = .locked →
      exec .changeoverComplete s =
        .next ({ s with time := { s.time with
          source := target, changeover := none, hold := false, prescaler := 0
          exponent := s.time.pendingExponent.getD s.time.exponent, pendingExponent := none } }.postTime
          { changedOver := true, holdEnded := s.time.hold })) ∧
    (s.time.changeover = none ∨ (∃ kind, s.time.changeover = some ⟨.synth, kind⟩ ∧ s.time.synth ≠ .locked) →
      exec .changeoverComplete s = .next s) ∧
    (let seen := s.time.freezeSample :: samples
      let change := fun (xs : List Bool) =>
        ∃ before after, xs = before ++ (!s.time.freezePin) :: (!s.time.freezePin) :: after
      (¬ change seen → exec (.freezePinChange samples) s =
        .next { s with time := { s.time with freezeSample := samples.getLastD s.time.freezeSample } }) ∧
      (change seen.dropLast → exec (.freezePinChange samples) s = .next s) ∧
      (change seen → ¬ change seen.dropLast → exec (.freezePinChange samples) s =
        .next { s with time := { s.time with
          freezePin := !s.time.freezePin, freezeSample := !s.time.freezePin } })) ∧
    ∀ flags : TimeFlags, ∃ q : List NoticeItem,
      s.postTime flags = { s with notices := { s.notices with queues := ⟨q, s.notices.queues.link⟩ } } ∧
      ((∀ i ∈ s.notices.queues.spi, i.isTimebase = false) → q = s.notices.queues.spi ++ [.timebase 1 flags]) ∧
      ∀ before after n f, s.notices.queues.spi = before ++ .timebase n f :: after →
        (∀ i ∈ before ++ after, i.isTimebase = false) →
        q = before ++ .timebase (if n = 0xFFFF then 0xFFFF else n + 1) (f.union flags) :: after

/-- READ_TIME answers the record of Table 10.16 and changes nothing. SET_TIME sets the count and moves every due and
every present capture with it, so that every difference and the due list are kept. -/
def Obligations.ReadSetTime : Prop :=
  ∀ (c : Cmd) (s : State),
    (s.takes 0x50 c = true → c.body = [] → ∃ b p f : Byte,
      exec (.readTime c) s =
        okNext 0x50 c
          (bytes32 s.time.count ++
            [b, s.time.n.setWidth 8, s.time.l.setWidth 8, policyByte s.time.policy, s.time.exponent.setWidth 8, p, f])
          (during s c) ∧
      b.getLsbD 0 = decide (s.time.source = .synth) ∧ b.extractLsb' 1 2 = (synthByte s.time.synth).setWidth 2 ∧
      b.getLsbD 3 = s.time.changeover.isSome ∧ b.getLsbD 4 = s.time.hold ∧
      (∀ x, s.time.changeover = some x →
        b.getLsbD 5 = decide (x.target = .synth) ∧ b.getLsbD 6 = decide (x.kind = .fallback)) ∧
      (s.time.changeover = none → b.extractLsb' 5 2 = 0) ∧ b.getLsbD 7 = false ∧
      p.extractLsb' 0 4 = s.time.pendingExponent.getD 0 ∧ p.extractLsb' 4 3 = 0 ∧
      p.getLsbD 7 = s.time.pendingExponent.isSome ∧
      f.getLsbD 0 = s.time.freezePin ∧ f.getLsbD 1 = s.time.freezeCommand ∧
      f.getLsbD 2 = (s.time.freezePin || s.time.freezeCommand) ∧ f.extractLsb' 3 5 = 0) ∧
    ∀ w : Word, s.takes 0x51 c = true → c.src = .spi → c.body = bytes32 w →
      ∃ t : State, exec (.setTime c) s = okNext 0x51 c [] t ∧
        t = { during s c with time := { s.time with count := w }, entries := t.entries, triggers := t.triggers } ∧
        (∀ e, t.entry e = (s.entry e).map fun a =>
          { a with state :=
              match a.state with
              | .armed due => .armed (due + (w - s.time.count))
              | .idle => .idle
              | .parked => .parked
              | .held remaining => .held remaining }) ∧
        (∀ k, t.triggers.get k = { s.triggers.get k with
          capture := (s.triggers.get k).capture.map fun x => x + (w - s.time.count) }) ∧
        ∀ e, t.keyOf e = s.keyOf e

/-- SYNTH_SET writes N and L as a pair, refused with SETTING_LOCKED unless the synthesizer is OFF, and the policy.
SYNTH_ON starts it from OFF, refused with SETTING_LOCKED for L = 0; SYNTH_OFF stops it, refused with SETTING_LOCKED
while SYNTH is selected or the target of a changeover. -/
def Obligations.SynthCommands : Prop :=
  ∀ (c : Cmd) (s : State), c.src = .spi →
    let t := s.time
    (∀ w : SynthWrite, s.takes 0x52 c = true → c.body = synthSetBytes w →
      (w.nl ≠ none → t.synth ≠ .off → exec (.synthSet c) s = refusedNext 0x52 c .settingLocked s) ∧
      (w.nl = none ∨ t.synth = .off →
        exec (.synthSet c) s =
          okNext 0x52 c [] { during s c with time := { t with
            n := (w.nl.map Prod.fst).getD t.n
            l := (w.nl.map Prod.snd).getD t.l
            policy := w.policy.getD t.policy } })) ∧
    (s.takes 0x52 c = true → c.body.length = 4 → (∀ w, c.body ≠ synthSetBytes w) →
      exec (.synthSet c) s = refusedNext 0x52 c .range s) ∧
    (s.takes 0x53 c = true → c.body = [] →
      (t.synth = .off → t.l = 0 → exec (.synthOn c) s = refusedNext 0x53 c .settingLocked s) ∧
      (t.synth = .off → t.l ≠ 0 →
        exec (.synthOn c) s = okNext 0x53 c [] { during s c with time := { t with synth := .acquiring } }) ∧
      (t.synth ≠ .off → exec (.synthOn c) s = okNext 0x53 c [] (during s c))) ∧
    (s.takes 0x54 c = true → c.body = [] →
      let bound := t.source = .synth ∨ ∃ kind, t.changeover = some ⟨.synth, kind⟩
      (bound → exec (.synthOff c) s = refusedNext 0x54 c .settingLocked s) ∧
      (¬ bound → exec (.synthOff c) s = okNext 0x54 c [] { during s c with time := { t with synth := .off } }))

/-- SELECT: BUSY during a changeover; no change for the present source; NOT_LOCKED for SYNTH unless LOCKED; else a
requested changeover begins. PRESCALE is pending while the count advances and in force at once otherwise, with the
prescaler at 0. FREEZE sets the freeze command setting. Other values are RANGE. -/
def Obligations.SelectPrescaleFreeze : Prop :=
  ∀ (c : Cmd) (s : State) (b : Byte), c.src = .spi → c.body = [b] →
    let t := s.time
    (s.takes 0x55 c = true →
      (1 < b.toNat → exec (.selectSource c) s = refusedNext 0x55 c .range s) ∧
      ∀ source : ClockSource, b = (if source = .ref then 0 else 1) →
        (t.changeover ≠ none → exec (.selectSource c) s = refusedNext 0x55 c .busy s) ∧
        (t.changeover = none → source = t.source → exec (.selectSource c) s = okNext 0x55 c [] (during s c)) ∧
        (t.changeover = none → source ≠ t.source →
          (source = .synth → t.synth ≠ .locked → exec (.selectSource c) s = refusedNext 0x55 c .notLocked s) ∧
          (source = .ref ∨ t.synth = .locked →
            exec (.selectSource c) s =
              okNext 0x55 c []
                { during s c with time := { t with changeover := some ⟨source, .requested⟩ } }))) ∧
    (s.takes 0x56 c = true →
      (15 < b.toNat → exec (.prescale c) s = refusedNext 0x56 c .range s) ∧
      (b.toNat ≤ 15 →
        let advancing := t.frozen = false ∧ t.changeover = none ∧ t.hold = false
        (advancing →
          exec (.prescale c) s =
            okNext 0x56 c [] { during s c with time := { t with pendingExponent := some (b.setWidth 4) } }) ∧
        (¬ advancing →
          exec (.prescale c) s =
            okNext 0x56 c []
              { during s c with time := { t with
                exponent := b.setWidth 4, pendingExponent := none, prescaler := 0 } }))) ∧
    (s.takes 0x57 c = true →
      (1 < b.toNat → exec (.freeze c) s = refusedNext 0x57 c .range s) ∧
      (b.toNat ≤ 1 →
        exec (.freeze c) s =
          okNext 0x57 c [] { during s c with time := { t with freezeCommand := decide (b = 1) } }))

/-! ### The SPI port -/

/-- The fall of SEL opens a transaction with the status byte and a copy of the response slot. The first eight bits on
SDI are the kind byte: A5H, 5AH and 3CH name COMMAND, FETCH and POLL. A POLL changes neither slot nor the last
transaction result, an unknown kind sets it to KIND, and a transaction without a kind changes nothing of the port but
that it ends; each shifts out the status byte, as far as it is clocked, and zeros. The first bit is on SDO from the fall
of SEL, and the next after each falling edge of SCK; SDO is high-impedance while SEL is high and while NRESET is held.
The model's choices: the bits shifted out are recorded at the rise of SEL (log 15); a row of a kind that the bits do not
name does not arise (log 2); with no transaction open the rise judges nothing, and ends one that a RESET_PART cut (log
15, log 17). -/
def Obligations.SpiTransactions : Prop :=
  ∀ (s : State) (sdi : List Bool),
    let closed := fun (out : List Bool) =>
      ({ selLow := false, transaction := none, cut := none, buffer := [], bufferCount := 0
         lastResult := s.spi.lastResult, sdo := out } : SpiPort)
    (s.phase = .running → s.spi.selLow = false → ∃ b : Byte,
      exec .selFall s =
        .next { s with
          spi := { s.spi with
            selLow := true
            transaction := some { kind := none, status := b, copy := s.ctl.responses.spi, placed := false } } } ∧
      b.getLsbD 7 = s.ctl.commands.spi.isSome ∧ b.getLsbD 6 = s.ctl.responses.spi.isSome ∧
      b.getLsbD 5 = !s.notices.queues.spi.isEmpty ∧ b.getLsbD 4 = decide (s.ctl.resetCause ≠ .none) ∧
      b.getLsbD 3 = false ∧ b.extractLsb' 0 3 = (spiResultByte s.spi.lastResult).setWidth 3) ∧
    (∀ x, s.spi.transaction = some x →
      (∀ kind rest, sdi = spiBits kind ++ rest →
        let out := spiBits x.status ++ List.replicate rest.length false
        (kind = 0x3C → exec (.pollTransaction sdi) s = .next { s with spi := closed out }) ∧
        (kind ≠ 0xA5 → kind ≠ 0x5A → kind ≠ 0x3C →
          exec (.unknownKindTransaction sdi) s = .next { s with spi := { closed out with lastResult := .kind } }) ∧
        (kind ≠ 0xA5 → exec (.commandTransaction sdi) s = .next s) ∧
        (kind ≠ 0x5A → exec (.fetchTransaction sdi) s = .next s) ∧
        (kind ≠ 0x3C → exec (.pollTransaction sdi) s = .next s) ∧
        (kind = 0xA5 ∨ kind = 0x5A ∨ kind = 0x3C → exec (.unknownKindTransaction sdi) s = .next s) ∧
        exec (.transactionWithoutKind sdi) s = .next s) ∧
      (sdi.length < 8 →
        exec (.transactionWithoutKind sdi) s =
          .next { s with spi := closed ((spiBits x.status).take sdi.length) } ∧
        exec (.commandTransaction sdi) s = .next s ∧ exec (.fetchTransaction sdi) s = .next s ∧
        exec (.pollTransaction sdi) s = .next s ∧ exec (.unknownKindTransaction sdi) s = .next s)) ∧
    (s.spi.transaction = none → ∀ i ∈ [Instr.commandTransaction sdi, .fetchTransaction sdi, .pollTransaction sdi,
        .unknownKindTransaction sdi, .transactionWithoutKind sdi],
      (s.spi.cut = none → exec i s = .next { s with spi := { s.spi with selLow := false } }) ∧
      ∀ bits, s.spi.cut = some bits →
        exec i s = .next { s with
          spi := closed (bits.take sdi.length ++ List.replicate (sdi.length - bits.length) false) }) ∧
    ∀ sckHigh : Bool,
      let fallen := sdi.length - (if sckHigh then 1 else 0)
      (s.phase = .held ∨ s.spi.selLow = false ∨ (s.spi.transaction = none ∧ s.spi.cut = none) →
        s.sdoPin sdi sckHigh = none) ∧
      (s.phase ≠ .held → s.spi.selLow = true →
        (∀ x, s.spi.transaction = some x →
          (fallen < 8 → s.sdoPin sdi sckHigh = some (x.status.getLsbD (7 - fallen))) ∧
          ∀ kind rest, sdi = spiBits kind ++ rest → 8 ≤ fallen →
            (kind ≠ 0x5A ∨ x.copy = none → s.sdoPin sdi sckHigh = some false) ∧
            ∀ r, kind = 0x5A → x.copy = some r →
              s.sdoPin sdi sckHigh = some (((responseBytes r).flatMap spiBits).getD (fallen - 8) false)) ∧
        ∀ bits, s.spi.transaction = none → s.spi.cut = some bits →
          s.sdoPin sdi sckHigh = some (bits.getD fallen false))

/-- A COMMAND transaction is judged at the rise of SEL: LENGTH, CHECK, BUSY, and ACCEPTED, in that order. An accepted
frame enters the command slot; else the slot is kept. The part shifts out zeros after the status byte (recorded by
log 15). The bits on SDI are the kind byte, complete frame bytes, and fewer than eight bits of one partly received. -/
def Obligations.CommandTransaction : Prop :=
  ∀ (s : State) (x : Transaction) (bytes : List Byte) (part : List Bool), s.spi.transaction = some x → part.length < 8 →
    let sdi := spiBits 0xA5 ++ bytes.flatMap spiBits ++ part
    let ends := fun (r : SpiResult) (slot : Option CommandFrame) =>
      exec (.commandTransaction sdi) s = .next { s with
        ctl := { s.ctl with commands := ⟨slot, s.ctl.commands.link⟩ }
        spi := { selLow := false, transaction := none, cut := none, buffer := [], bufferCount := 0, lastResult := r
                 sdo := spiBits x.status ++ List.replicate (8 * bytes.length + part.length) false } }
    let wellSized := part = [] ∧ ∃ len rest, bytes = len :: rest ∧ 3 ≤ len.toNat ∧ len.toNat ≤ 47 ∧
      bytes.length = len.toNat + 1
    (¬ wellSized → ends .length s.ctl.commands.spi) ∧
    (wellSized →
      (bytes.getLast? ≠ some (crc8 bytes.dropLast) → ends .check s.ctl.commands.spi) ∧
      (bytes.getLast? = some (crc8 bytes.dropLast) →
        (s.ctl.commands.spi ≠ none → ends .busy s.ctl.commands.spi) ∧
        (s.ctl.commands.spi = none → ∀ len code seq rest, bytes = len :: code :: seq :: rest →
          ends .accepted (some { code := code, seq := seq, body := rest.dropLast, broadcast := false }))))

/-- A FETCH shifts out the copied response and then zeros (recorded by log 15). It empties the slot with COLLECTED
when it clocked the whole frame and no response was placed since SEL fell, keeps it with KEPT otherwise, and with an
empty copy changes neither. -/
def Obligations.FetchTransaction : Prop :=
  ∀ (s : State) (x : Transaction) (rest : List Bool), s.spi.transaction = some x →
    let ends := fun (r : SpiResult) (slot : Option Response) (out : List Bool) =>
      exec (.fetchTransaction (spiBits 0x5A ++ rest)) s = .next { s with
        ctl := { s.ctl with responses := ⟨slot, s.ctl.responses.link⟩ }
        spi := { selLow := false, transaction := none, cut := none, buffer := [], bufferCount := 0, lastResult := r
                 sdo := spiBits x.status ++ out } }
    (x.copy = none → ends s.spi.lastResult s.ctl.responses.spi (List.replicate rest.length false)) ∧
    ∀ r, x.copy = some r →
      let frame := (responseBytes r).flatMap spiBits
      let out := frame.take rest.length ++ List.replicate (rest.length - frame.length) false
      ((responseBytes r).length ≤ rest.length / 8 → x.placed = false → ends .collected none out) ∧
      ((responseBytes r).length ≤ rest.length / 8 → x.placed = true → ends .kept s.ctl.responses.spi out) ∧
      (rest.length / 8 < (responseBytes r).length → ends .kept s.ctl.responses.spi out)

/-! ### The link port -/

/-- A sample of RXD at 1 raises the idle count by a sixteenth of a bit-time, up to Q, and one at 0 sets it to 0;
sixteen at 1 raise it by one. A sample at 0 after one at 1 puts the receiver inside a character. A start bit of whose
samples 7, 8 and 9 at least two are 1 is false: the receiver leaves the character without an error, and abandons the
frame in assembly with GAP if G bit-times have passed since the end of the last stop bit; so does a gap of more than G
bit-times, when they pass. A start bit does not begin after samples at which a transmission would have begun
(R171; log 25). The model's choices: elapsed time is the samples in the operands (log 5), counted from the completion of
the character, 7 sample periods before the end of its stop bit (log 7), and a start bit is found false at its sample 9
(log 7); RXD counts as seen high only from a sample after that completion (log 8); what the samples rule out does not
arise (log 2). -/
def Obligations.StartBitsAndGaps : Prop :=
  (∀ (k : LinkPort) (b : Bool) (rest : List Bool),
    k.hear [] = k ∧ k.hear (b :: rest) = (k.sample b).hear rest ∧ k.idleCount = k.idleSamples / 16 ∧
    k.sample b = { k with
      rxdHigh := b
      idleSamples := if b then min (k.idleSamples + 1) (16 * k.settings.q.toNat) else 0
      sinceChar := if k.receiver = .hunting then k.sinceChar else k.sinceChar + 1 } ∧
    (k.idleCount ≤ k.settings.q.toNat →
      (k.hear (List.replicate 16 true)).idleCount = min (k.idleCount + 1) k.settings.q.toNat)) ∧
  ∀ (s : State) (rxd : List Bool), s.phase = .running → s.link.transmitter = .quiet →
    let heard := s.link.hear rxd
    let starts := ∃ before after, s.link.rxdHigh :: rxd = before ++ true :: false :: after
    let passed := s.link.receiver ≠ .hunting ∧ 16 * s.link.settings.g.toNat + 7 ≤ heard.sinceChar
    let isFalse := rxd.length = 9 ∧ 2 ≤ [rxd[6]?, rxd[7]?, rxd[8]?].count (some true)
    let abandoned := { heard with insideChar := false, receiver := .hunting, lastError := .gap, sinceChar := 0 }
    let before := s.link.hear rxd.dropLast
    let first := rxd = [] ∨ before.sinceChar < 16 * s.link.settings.g.toNat + 7
    let due := s.link.receiver = .hunting ∧ s.link.settings.q.toNat ≤ heard.idleCount ∧
      (s.ctl.responses.link ≠ none ∨ s.notices.marker = true)
    (s.link.insideChar = false →
      (¬ starts → heard.rxdHigh = true → ¬ passed → ¬ due →
        exec (.startBit rxd) s = .next { s with link := { heard.sample false with insideChar := true } }) ∧
      (starts ∨ heard.rxdHigh = false ∨ passed ∨ due → exec (.startBit rxd) s = .next s) ∧
      (¬ starts → passed → first → exec (.gap rxd) s = .next ({ s with link := abandoned } : State).settleLink) ∧
      (starts ∨ ¬ passed ∨ ¬ first → exec (.gap rxd) s = .next s) ∧
      exec (.falseStart rxd) s = .next s) ∧
    (s.link.insideChar = true →
      (isFalse → ¬ passed →
        exec (.falseStart rxd) s = .next ({ s with link := { heard with insideChar := false } } : State).settleLink) ∧
      (isFalse → passed → exec (.falseStart rxd) s = .next ({ s with link := abandoned } : State).settleLink) ∧
      (¬ isFalse → exec (.falseStart rxd) s = .next s) ∧
      exec (.startBit rxd) s = .next s ∧ exec (.gap rxd) s = .next s)

/-- A character is read from the samples since its start bit's sample 0: each bit is the value that at least two of
its samples 7, 8 and 9 show, sixteen samples to a bit; the start bit is 0, the data bits come least significant first,
then the mark and the stop bit, whose reading completes it. It ends with the receiver outside it. With stop bit 0 it
abandons a frame in assembly with FRAMING. An address character abandons one with SPLIT, and starts a frame when it is
toward the part's own address or 0. In HUNTING a data character is ignored; in assembly it is LEN, 3 to 47 or else
LENGTH, then a character of the frame; the last one has the frame judged: CHECK, OVERRUN, or accepted into the link
command slot. The model's choices: the samples are the operand (log 5); samples that show no valid start bit, or are not
the 169 up to the stop bit's reading, do not arise (log 2); the samples toward the gap are counted from the completion,
7 sample periods before the end of the stop bit (log 7); and from the completion on RXD counts as not seen high until a
later sample at 1 (log 8). -/
def Obligations.Character : Prop :=
  ∀ (s : State) (rxd : List Bool) (data : Byte), s.phase = .running → s.link.transmitter = .quiet →
    s.link.insideChar = true →
    let samples := false :: rxd
    let bit := fun (j : Nat) =>
      decide (2 ≤ [samples[16 * j + 7]?, samples[16 * j + 8]?, samples[16 * j + 9]?].count (some true))
    let mark := bit 9
    let stop := bit 10
    (rxd.length ≠ 169 ∨ bit 0 = true → exec (.characterComplete rxd) s = .next s) ∧
    (rxd.length = 169 → bit 0 = false → (∀ i, i < 8 → data.getLsbD i = bit (i + 1)) →
    let out := { s.link.hear rxd with insideChar := false, rxdHigh := false, sinceChar := 0 }
    let ends := fun (u : LinkPort) (slot : Option CommandFrame) =>
      exec (.characterComplete rxd) s =
        .next ({ s with link := u, ctl := { s.ctl with commands := ⟨s.ctl.commands.spi, slot⟩ } } : State).settleLink
    let kept := s.ctl.commands.link
    let assembling := s.link.receiver ≠ .hunting
    (stop = false → assembling → ends { out with receiver := .hunting, lastError := .framing } kept) ∧
    (stop = false → ¬ assembling → ends out kept) ∧
    (stop = true → mark = true →
      let error := if s.link.receiver = .hunting then s.link.lastError else .split
      (data = 0 → ends { out with receiver := .assembling true [], lastError := error } kept) ∧
      (data ≠ 0 → data = s.link.address.setWidth 8 →
        ends { out with receiver := .assembling false [], lastError := error } kept) ∧
      (data ≠ 0 → data ≠ s.link.address.setWidth 8 →
        ends { out with receiver := .hunting, lastError := error } kept)) ∧
    (stop = true → mark = false → ¬ assembling → ends out kept) ∧
    (stop = true → mark = false → ∀ broadcast, s.link.receiver = .assembling broadcast [] →
      (3 ≤ data.toNat → data.toNat ≤ 47 → ends { out with receiver := .assembling broadcast [data] } kept) ∧
      (data.toNat < 3 ∨ 47 < data.toNat → ends { out with receiver := .hunting, lastError := .length } kept)) ∧
    (stop = true → mark = false → ∀ broadcast len rest, s.link.receiver = .assembling broadcast (len :: rest) →
      let frame := len :: rest ++ [data]
      (rest.length + 1 ≠ len.toNat → ends { out with receiver := .assembling broadcast frame } kept) ∧
      (rest.length + 1 = len.toNat →
        (data ≠ crc8 (len :: rest) → ends { out with receiver := .hunting, lastError := .check } kept) ∧
        (data = crc8 (len :: rest) → kept.isSome = true ∨ s.ctl.responses.link.isSome = true →
          ends { out with receiver := .hunting, lastError := .overrun } kept) ∧
        (data = crc8 (len :: rest) → kept = none → s.ctl.responses.link = none →
          ∀ code seq body, rest = code :: seq :: body →
            ends { out with receiver := .hunting }
              (some { code := code, seq := seq, body := body, broadcast := broadcast })))))

/-- When the idle count reaches Q on a free line, a waiting response is sent, or else a pending marker, whose request
becomes none: the part's address character and then the frame, or 4EH, as data characters. (Where another event brings
the conditions about, it begins the transmission itself, by the settling that ends it.) At the end, 176 sample periods
for each character, the transmitter is QUIET, the idle count is 0, and a response that was sent has left its slot. LDE is
asserted and TXD carries the bits, sixteen periods each, while SENDING; else LDE is deasserted and TXD is at 1. The
model's choices: the samples of RXD up to the beginning, and the sample periods up to the end, are the operands (log
6), and the sample periods of the frame count from its beginning (log 26); samples that rule the beginning out or go on
past it (log 25), and what finds nothing waiting, do not arise (log 2). -/
def Obligations.Transmission : Prop :=
  ∀ (s : State) (rxd : List Bool) (n : Nat), s.phase = .running →
    let own : LinkChar := { data := 0x80 ||| s.link.address.setWidth 8, mark := true }
    let heard := s.link.hear rxd
    let starts := ∃ before after, s.link.rxdHigh :: rxd = before ++ true :: false :: after
    let free := s.link.transmitter = .quiet ∧ s.link.receiver = .hunting ∧ s.link.insideChar = false ∧ ¬ starts ∧
      s.link.settings.q.toNat ≤ heard.idleCount
    let first := rxd = [] ∨ (s.link.hear rxd.dropLast).idleCount < s.link.settings.q.toNat
    (free → first →
      (∀ r, s.ctl.responses.link = some r →
        exec (.transmissionBegin rxd) s = .next { s with link := { heard with
          transmitter := .sending .response (own :: (responseBytes r).map fun b => { data := b, mark := false }) 0
          divider := 0 } }) ∧
      (s.ctl.responses.link = none → s.notices.marker = true →
        exec (.transmissionBegin rxd) s = .next { s with
          link := { heard with transmitter := .sending .marker [own, { data := 0x4E, mark := false }] 0, divider := 0 }
          notices := { s.notices with marker := false } })) ∧
    (¬ free ∨ ¬ first ∨ (s.ctl.responses.link = none ∧ s.notices.marker = false) →
      exec (.transmissionBegin rxd) s = .next s) ∧
    (s.link.transmitter = .quiet → exec (.transmissionEnd n) s = .next s ∧ s.link.driverEnabled = false ∧
      s.link.txd = true) ∧
    ∀ what chars sent, s.link.transmitter = .sending what chars sent →
      (sent + n = 176 * chars.length →
        exec (.transmissionEnd n) s =
          .next ({ s with
            link := { s.link with transmitter := .quiet, idleSamples := 0, rxdHigh := false }
            ctl := { s.ctl with responses :=
              if what = .response then ⟨s.ctl.responses.spi, none⟩ else s.ctl.responses } } : State).settleLink) ∧
      (sent + n ≠ 176 * chars.length → exec (.transmissionEnd n) s = .next s) ∧
      s.link.driverEnabled = true ∧
      ∀ c, chars[sent / 176]? = some c →
        let b := sent % 176 / 16
        s.link.txd =
          if b = 0 then false else if b ≤ 8 then c.data.getLsbD (b - 1) else if b = 9 then c.mark else true

/-- LINK_CONFIG makes D, G and Q in range pending, in force at once if the link is idle; a value out of range is RANGE.
LINK_STATUS answers the record of Table 10.17 and clears the last link error. Pending settings come into force when the
link is idle, with the idle count at 0, and not before (log 10); the first sample at the new rate lies D cycles of
REFCLK later (log 6). -/
def Obligations.LinkSettingsCommands : Prop :=
  ∀ (c : Cmd) (s : State),
    (∀ d0 d1 g q : Byte, s.takes 0x60 c = true → c.src = .spi → c.body = [d0, d1, g, q] →
      let w : LinkSettings := { d := le16 d0 d1, g := g, q := q }
      (¬ w.inRange → exec (.linkConfig c) s = refusedNext 0x60 c .range s) ∧
      (w.inRange →
        exec (.linkConfig c) s =
          okNext 0x60 c [] { during s c with link := { s.link with pendingSettings := some w } })) ∧
    (s.takes 0x61 c = true → c.body = [] →
      exec (.linkStatus c) s =
        okNext 0x61 c
          ([s.link.address.setWidth 8] ++ bytes16 s.link.settings.d ++ [s.link.settings.g, s.link.settings.q] ++
            (match s.link.pendingSettings with
              | some w => [1] ++ bytes16 w.d ++ [w.g, w.q]
              | none => [0, 0, 0, 0, 0]) ++ [linkErrorByte s.link.lastError])
          { during s c with link := { s.link with lastError := .none } }) ∧
    (s.phase = .running →
      let idle := s.link.receiver = .hunting ∧ s.link.insideChar = false ∧ s.link.transmitter = .quiet ∧
        s.ctl.responses.link = none ∧ s.ctl.commands.link = none ∧ s.notices.marker = false
      (∀ w, idle → s.link.pendingSettings = some w →
        exec .pendingSettingsInForce s =
          .next { s with link := { s.link with settings := w, pendingSettings := none, idleSamples := 0, divider := 0 } }) ∧
      (¬ idle ∨ s.link.pendingSettings = none → exec .pendingSettingsInForce s = .next s))

/-! ### The resets -/

/-- A power-on reset and the fall of NRESET leave every block at its reset values, with cause POWER_ON and PIN; the part
takes nothing until the first levels after the release are known. Address and D come from the straps, 0 read as 15, with
G 40 and Q 4. The part runs from the sample at which every trigger input and the FREEZE pin have shown one level in two
successive samples; the level taken is that of the last two that agree (log 24), and makes no edge. While it does not
run, the part keeps every reset value: nothing is taken, counted, fired or opened; while NRESET is held NOTICE0 and LDE
are deasserted, TXD is at 1, and SDO and the line pins are high-impedance. The model's choices: G and Q take 40 and 4 at
the fall of NRESET already (log 13); a fall of NRESET while it is held, its release while it is not, and samples that do
not end at the first levels, or come out of their turn, change nothing (log 2). -/
def Obligations.Resets : Prop :=
  (∀ s t : State, HeldLaw s → step s = .next t → HeldLaw t) ∧
  (∀ (s : State) (sdi : List Bool) (sckHigh : Bool), HeldLaw s → s.phase = .held → s.notices.notice0 = false ∧
    s.link.driverEnabled = false ∧ s.link.txd = true ∧ s.sdoPin sdi sckHigh = none ∧ ∀ l, s.lines.pin l = none) ∧
  ∀ (s : State) (adr : BitVec 4) (lspd : BitVec 2) (low : Bool) (samples : List InputSample),
    let strapped := fun (k : LinkPort) =>
      k.address = (if adr = 0 then 15 else adr) ∧
        k.settings.d = (if lspd = 0 then 130 else if lspd = 1 then 65 else if lspd = 2 then 33 else 11) ∧
        k.settings.g = 40 ∧ k.settings.q = 4
    let passed := fun (xs : List InputSample) =>
      (∀ k : Fin 8, ∃ before b after, xs.map (·.trigger k) = before ++ b :: b :: after) ∧
        ∃ before b after, xs.map (·.freezePin) = before ++ b :: b :: after
    let shows := fun (xs : List Bool) (level last : Bool) =>
      xs.getLast? = some last ∧
        ∃ before after, xs = before ++ level :: level :: after ∧ ∀ p b q, level :: after ≠ p ++ b :: b :: q
    (∃ t : State, exec (.powerOnReset adr lspd low) s = .next t ∧ ResetLaw t ∧ t.ctl.resetCause = .powerOn ∧
      strapped t.link ∧ t.phase = (if low then .held else .settling) ∧ t.pending = s.pending) ∧
    (s.phase ≠ .held → ∃ t : State, exec .nresetAssert s = .next t ∧ ResetLaw t ∧ t.ctl.resetCause = .pin ∧
      t.phase = .held ∧ t.link.settings.g = 40 ∧ t.link.settings.q = 4 ∧ t.pending = s.pending) ∧
    (s.phase = .held → ResetLaw s → ∃ t : State, exec (.nresetRelease adr lspd) s = .next t ∧ ResetLaw t ∧
      strapped t.link ∧ t = { s with phase := .settling, link := t.link }) ∧
    (s.phase = .settling → passed samples → ¬ passed samples.dropLast →
      ∃ t : State, exec (.firstLevelPassed samples) s = .next t ∧
        t = { s with
              phase := .running, triggers := t.triggers
              time := { s.time with freezePin := t.time.freezePin, freezeSample := t.time.freezeSample } } ∧
        shows (samples.map (·.freezePin)) t.time.freezePin t.time.freezeSample ∧
        ∀ k, ∃ level last, t.triggers.get k = { s.triggers.get k with level := level, sample := last } ∧
          shows (samples.map (·.trigger k)) level last) ∧
    (s.phase = .held → exec .nresetAssert s = .next s) ∧
    (s.phase ≠ .held → exec (.nresetRelease adr lspd) s = .next s) ∧
    (s.phase ≠ .settling ∨ ¬ passed samples ∨ passed samples.dropLast →
      exec (.firstLevelPassed samples) s = .next s)

/-! ### Frames -/

/-- The frame of any command passes the port's length and CHECK tests and gives the command back. The bits of bytes on
an SPI line, most significant first, give the bytes back, and a byte partly received counts for nothing. The eleven
bits of a character, each for sixteen samples, are read back as its data byte and mark, with start 0 and stop 1. -/
def Obligations.FrameRoundTrip : Prop :=
  (∀ (code seq : Byte) (body : List Byte) (broadcast : Bool), body.length ≤ 44 →
    let frame := commandBytes code seq body
    frame.length = body.length + 4 ∧ checkOk frame = true ∧
      (∃ len rest, frame = len :: rest ∧ lenOk len = true ∧ rest.length = len.toNat) ∧
      frameCommand frame broadcast = some { code := code, seq := seq, body := body, broadcast := broadcast }) ∧
  (∀ (bytes : List Byte) (part : List Bool), part.length < 8 → spiBytes (bytes.flatMap spiBits ++ part) = bytes) ∧
  ∀ c : LinkChar,
    let samples := c.bits.flatMap (List.replicate 16)
    readBit samples 0 = false ∧ readData samples = c.data ∧ readMark samples = c.mark ∧ readStop samples = true

/-! ### What every step keeps -/

/-- The reset state has every value the kinds of reset agree on, the cause POWER_ON, G 40 and Q 4, and meets the laws.
Its phase, address, D, sampled levels and level of SEL are the model's choice (log 4) and not stated. -/
def Obligations.ResetState : Prop :=
  ResetLaw State.reset ∧ State.reset.ctl.resetCause = .powerOn ∧ State.reset.link.settings.g = 40 ∧
    State.reset.link.settings.q = 4 ∧ State.reset.freeCount = 256 ∧ State.reset.pending = [] ∧
    QuotaLaw State.reset ∧ ChainLaw State.reset ∧ ListLaw State.reset ∧ DueOrder State.reset ∧ PromptLaw State.reset ∧
    ActionLaw State.reset ∧ GroupLaw State.reset.lines ∧ NoticeLaw State.reset ∧ MarkerLaw State.reset.notices ∧
    TimeLaw State.reset.time ∧ LinkLaw State.reset ∧ HeldLaw State.reset

/-- No port ever owns more entries than its quota, and every chain names an entry of the same owner. -/
def Obligations.EntryLawsKept : Prop :=
  ∀ s t : State, QuotaLaw s → ChainLaw s → step s = .next t → QuotaLaw t ∧ ChainLaw t

/-- The due list keeps holding every ARMED entry once, in the order of its differences, and each park list every PARKED
entry of its trigger once. No due entry ever stands in the due list for 2^16 ticks from the later of the moment it
became due and the moment it was armed (R27); that the tick is held back until the FIRE is the model's choice (log 9).
-/
def Obligations.ListLawsKept : Prop :=
  ∀ s t : State, ListLaw s → DueOrder s → PromptLaw s → step s = .next t → ListLaw t ∧ DueOrder t ∧ PromptLaw t

/-- Every action, staged action and trigger keeps its claims and its group's mode; a SEQUENCE group keeps showing the
pattern at its index, and a position stays within its limits. -/
def Obligations.LineLawsKept : Prop :=
  ∀ s t : State, ActionLaw s → GroupLaw s.lines → step s = .next t → ActionLaw t ∧ GroupLaw t.lines

/-- Each notice queue keeps at most one item for a source, of its port's entries alone, each with a count of at least 1;
the TIMEBASE item stays out of the link queue, and a marker request stands only for a non-empty link queue. -/
def Obligations.NoticeLawsKept : Prop :=
  ∀ s t : State, NoticeLaw s → MarkerLaw s.notices → step s = .next t → NoticeLaw t ∧ MarkerLaw t.notices

/-- The time base keeps its laws, and the time count changes by a tick, by SET_TIME and by the resets alone; on an empty
queue ticks come from the cycles that pass (log 1). -/
def Obligations.TimeLawKept : Prop :=
  ∀ s t : State, TimeLaw s.time → step s = .next t → TimeLaw t.time ∧
    (t.time.count ≠ s.time.count →
      s.pending = [] ∨ ∃ i rest, s.pending = i :: rest ∧
        ((∃ n, i = .tick n) ∨ (∃ c, i = .setTime c) ∨ (∃ c sdi, i = .resetPart c sdi) ∨ (∃ a d l, i = .powerOnReset a d l) ∨
          i = .nresetAssert))

/-- The link port keeps its laws: one filled link slot at most, a sent response in its slot, no pending settings on an
idle link, settings in range, and no transmission left due, so that each begins at the first event at which its
conditions hold (R171; log 25). -/
def Obligations.LinkLawKept : Prop :=
  ∀ s t : State, LinkLaw s → step s = .next t → LinkLaw t

end
end

