-- ==== Sys2Proof/Laws/State.lean ====
section
/-!
SUPPORT. One lemma for each field that an update of the state leaves alone, so that no proof unfolds a record update;
and the fields that the updates write.
-/
namespace Sys2Proof.Machine

/-! ### setEntry -/

@[simp] theorem State.setEntry_phase (s : State) (e : EntryId) (a : Option Entry) :
    (s.setEntry e a).phase = s.phase := rfl
@[simp] theorem State.setEntry_quotas (s : State) (e : EntryId) (a : Option Entry) :
    (s.setEntry e a).quotas = s.quotas := rfl
@[simp] theorem State.setEntry_armedPast (s : State) (e : EntryId) (a : Option Entry) :
    (s.setEntry e a).armedPast = s.armedPast := rfl
@[simp] theorem State.setEntry_dueList (s : State) (e : EntryId) (a : Option Entry) :
    (s.setEntry e a).dueList = s.dueList := rfl
@[simp] theorem State.setEntry_lines (s : State) (e : EntryId) (a : Option Entry) :
    (s.setEntry e a).lines = s.lines := rfl
@[simp] theorem State.setEntry_triggers (s : State) (e : EntryId) (a : Option Entry) :
    (s.setEntry e a).triggers = s.triggers := rfl
@[simp] theorem State.setEntry_notices (s : State) (e : EntryId) (a : Option Entry) :
    (s.setEntry e a).notices = s.notices := rfl
@[simp] theorem State.setEntry_time (s : State) (e : EntryId) (a : Option Entry) :
    (s.setEntry e a).time = s.time := rfl
@[simp] theorem State.setEntry_ctl (s : State) (e : EntryId) (a : Option Entry) :
    (s.setEntry e a).ctl = s.ctl := rfl
@[simp] theorem State.setEntry_spi (s : State) (e : EntryId) (a : Option Entry) :
    (s.setEntry e a).spi = s.spi := rfl
@[simp] theorem State.setEntry_link (s : State) (e : EntryId) (a : Option Entry) :
    (s.setEntry e a).link = s.link := rfl
@[simp] theorem State.setEntry_pending (s : State) (e : EntryId) (a : Option Entry) :
    (s.setEntry e a).pending = s.pending := rfl

/-! ### unlist -/

@[simp] theorem State.unlist_phase (s : State) (e : EntryId) :
    (s.unlist e).phase = s.phase := rfl
@[simp] theorem State.unlist_entries (s : State) (e : EntryId) :
    (s.unlist e).entries = s.entries := rfl
@[simp] theorem State.unlist_quotas (s : State) (e : EntryId) :
    (s.unlist e).quotas = s.quotas := rfl
@[simp] theorem State.unlist_armedPast (s : State) (e : EntryId) :
    (s.unlist e).armedPast = s.armedPast := rfl
@[simp] theorem State.unlist_lines (s : State) (e : EntryId) :
    (s.unlist e).lines = s.lines := rfl
@[simp] theorem State.unlist_notices (s : State) (e : EntryId) :
    (s.unlist e).notices = s.notices := rfl
@[simp] theorem State.unlist_time (s : State) (e : EntryId) :
    (s.unlist e).time = s.time := rfl
@[simp] theorem State.unlist_ctl (s : State) (e : EntryId) :
    (s.unlist e).ctl = s.ctl := rfl
@[simp] theorem State.unlist_spi (s : State) (e : EntryId) :
    (s.unlist e).spi = s.spi := rfl
@[simp] theorem State.unlist_link (s : State) (e : EntryId) :
    (s.unlist e).link = s.link := rfl
@[simp] theorem State.unlist_pending (s : State) (e : EntryId) :
    (s.unlist e).pending = s.pending := rfl

/-! ### appendPark -/

@[simp] theorem State.appendPark_phase (s : State) (k : Fin 8) (e : EntryId) :
    (s.appendPark k e).phase = s.phase := rfl
@[simp] theorem State.appendPark_entries (s : State) (k : Fin 8) (e : EntryId) :
    (s.appendPark k e).entries = s.entries := rfl
@[simp] theorem State.appendPark_quotas (s : State) (k : Fin 8) (e : EntryId) :
    (s.appendPark k e).quotas = s.quotas := rfl
@[simp] theorem State.appendPark_armedPast (s : State) (k : Fin 8) (e : EntryId) :
    (s.appendPark k e).armedPast = s.armedPast := rfl
@[simp] theorem State.appendPark_dueList (s : State) (k : Fin 8) (e : EntryId) :
    (s.appendPark k e).dueList = s.dueList := rfl
@[simp] theorem State.appendPark_lines (s : State) (k : Fin 8) (e : EntryId) :
    (s.appendPark k e).lines = s.lines := rfl
@[simp] theorem State.appendPark_notices (s : State) (k : Fin 8) (e : EntryId) :
    (s.appendPark k e).notices = s.notices := rfl
@[simp] theorem State.appendPark_time (s : State) (k : Fin 8) (e : EntryId) :
    (s.appendPark k e).time = s.time := rfl
@[simp] theorem State.appendPark_ctl (s : State) (k : Fin 8) (e : EntryId) :
    (s.appendPark k e).ctl = s.ctl := rfl
@[simp] theorem State.appendPark_spi (s : State) (k : Fin 8) (e : EntryId) :
    (s.appendPark k e).spi = s.spi := rfl
@[simp] theorem State.appendPark_link (s : State) (k : Fin 8) (e : EntryId) :
    (s.appendPark k e).link = s.link := rfl
@[simp] theorem State.appendPark_pending (s : State) (k : Fin 8) (e : EntryId) :
    (s.appendPark k e).pending = s.pending := rfl

/-! ### setTrigger -/

@[simp] theorem State.setTrigger_phase (s : State) (k : Fin 8) (r : Trigger) :
    (s.setTrigger k r).phase = s.phase := rfl
@[simp] theorem State.setTrigger_entries (s : State) (k : Fin 8) (r : Trigger) :
    (s.setTrigger k r).entries = s.entries := rfl
@[simp] theorem State.setTrigger_quotas (s : State) (k : Fin 8) (r : Trigger) :
    (s.setTrigger k r).quotas = s.quotas := rfl
@[simp] theorem State.setTrigger_armedPast (s : State) (k : Fin 8) (r : Trigger) :
    (s.setTrigger k r).armedPast = s.armedPast := rfl
@[simp] theorem State.setTrigger_dueList (s : State) (k : Fin 8) (r : Trigger) :
    (s.setTrigger k r).dueList = s.dueList := rfl
@[simp] theorem State.setTrigger_lines (s : State) (k : Fin 8) (r : Trigger) :
    (s.setTrigger k r).lines = s.lines := rfl
@[simp] theorem State.setTrigger_notices (s : State) (k : Fin 8) (r : Trigger) :
    (s.setTrigger k r).notices = s.notices := rfl
@[simp] theorem State.setTrigger_time (s : State) (k : Fin 8) (r : Trigger) :
    (s.setTrigger k r).time = s.time := rfl
@[simp] theorem State.setTrigger_ctl (s : State) (k : Fin 8) (r : Trigger) :
    (s.setTrigger k r).ctl = s.ctl := rfl
@[simp] theorem State.setTrigger_spi (s : State) (k : Fin 8) (r : Trigger) :
    (s.setTrigger k r).spi = s.spi := rfl
@[simp] theorem State.setTrigger_link (s : State) (k : Fin 8) (r : Trigger) :
    (s.setTrigger k r).link = s.link := rfl
@[simp] theorem State.setTrigger_pending (s : State) (k : Fin 8) (r : Trigger) :
    (s.setTrigger k r).pending = s.pending := rfl

/-! ### releaseClaims -/

@[simp] theorem State.releaseClaims_phase (s : State) (l : BitVec 16) (k : BitVec 8) :
    (s.releaseClaims l k).phase = s.phase := rfl
@[simp] theorem State.releaseClaims_entries (s : State) (l : BitVec 16) (k : BitVec 8) :
    (s.releaseClaims l k).entries = s.entries := rfl
@[simp] theorem State.releaseClaims_quotas (s : State) (l : BitVec 16) (k : BitVec 8) :
    (s.releaseClaims l k).quotas = s.quotas := rfl
@[simp] theorem State.releaseClaims_armedPast (s : State) (l : BitVec 16) (k : BitVec 8) :
    (s.releaseClaims l k).armedPast = s.armedPast := rfl
@[simp] theorem State.releaseClaims_dueList (s : State) (l : BitVec 16) (k : BitVec 8) :
    (s.releaseClaims l k).dueList = s.dueList := rfl
@[simp] theorem State.releaseClaims_notices (s : State) (l : BitVec 16) (k : BitVec 8) :
    (s.releaseClaims l k).notices = s.notices := rfl
@[simp] theorem State.releaseClaims_time (s : State) (l : BitVec 16) (k : BitVec 8) :
    (s.releaseClaims l k).time = s.time := rfl
@[simp] theorem State.releaseClaims_ctl (s : State) (l : BitVec 16) (k : BitVec 8) :
    (s.releaseClaims l k).ctl = s.ctl := rfl
@[simp] theorem State.releaseClaims_spi (s : State) (l : BitVec 16) (k : BitVec 8) :
    (s.releaseClaims l k).spi = s.spi := rfl
@[simp] theorem State.releaseClaims_link (s : State) (l : BitVec 16) (k : BitVec 8) :
    (s.releaseClaims l k).link = s.link := rfl
@[simp] theorem State.releaseClaims_pending (s : State) (l : BitVec 16) (k : BitVec 8) :
    (s.releaseClaims l k).pending = s.pending := rfl

/-! ### post -/

@[simp] theorem State.post_phase (s : State) (p : Port) (e : EntryId) (tag : BitVec 16) (f : EntryFlags) (due : Word) :
    (s.post p e tag f due).phase = s.phase := rfl
@[simp] theorem State.post_entries (s : State) (p : Port) (e : EntryId) (tag : BitVec 16) (f : EntryFlags) (due : Word) :
    (s.post p e tag f due).entries = s.entries := rfl
@[simp] theorem State.post_quotas (s : State) (p : Port) (e : EntryId) (tag : BitVec 16) (f : EntryFlags) (due : Word) :
    (s.post p e tag f due).quotas = s.quotas := rfl
@[simp] theorem State.post_armedPast (s : State) (p : Port) (e : EntryId) (tag : BitVec 16) (f : EntryFlags) (due : Word) :
    (s.post p e tag f due).armedPast = s.armedPast := rfl
@[simp] theorem State.post_dueList (s : State) (p : Port) (e : EntryId) (tag : BitVec 16) (f : EntryFlags) (due : Word) :
    (s.post p e tag f due).dueList = s.dueList := rfl
@[simp] theorem State.post_lines (s : State) (p : Port) (e : EntryId) (tag : BitVec 16) (f : EntryFlags) (due : Word) :
    (s.post p e tag f due).lines = s.lines := rfl
@[simp] theorem State.post_triggers (s : State) (p : Port) (e : EntryId) (tag : BitVec 16) (f : EntryFlags) (due : Word) :
    (s.post p e tag f due).triggers = s.triggers := rfl
@[simp] theorem State.post_time (s : State) (p : Port) (e : EntryId) (tag : BitVec 16) (f : EntryFlags) (due : Word) :
    (s.post p e tag f due).time = s.time := rfl
@[simp] theorem State.post_ctl (s : State) (p : Port) (e : EntryId) (tag : BitVec 16) (f : EntryFlags) (due : Word) :
    (s.post p e tag f due).ctl = s.ctl := rfl
@[simp] theorem State.post_spi (s : State) (p : Port) (e : EntryId) (tag : BitVec 16) (f : EntryFlags) (due : Word) :
    (s.post p e tag f due).spi = s.spi := rfl
@[simp] theorem State.post_link (s : State) (p : Port) (e : EntryId) (tag : BitVec 16) (f : EntryFlags) (due : Word) :
    (s.post p e tag f due).link = s.link := rfl
@[simp] theorem State.post_pending (s : State) (p : Port) (e : EntryId) (tag : BitVec 16) (f : EntryFlags) (due : Word) :
    (s.post p e tag f due).pending = s.pending := rfl

/-! ### postTime -/

@[simp] theorem State.postTime_phase (s : State) (f : TimeFlags) :
    (s.postTime f).phase = s.phase := rfl
@[simp] theorem State.postTime_entries (s : State) (f : TimeFlags) :
    (s.postTime f).entries = s.entries := rfl
@[simp] theorem State.postTime_quotas (s : State) (f : TimeFlags) :
    (s.postTime f).quotas = s.quotas := rfl
@[simp] theorem State.postTime_armedPast (s : State) (f : TimeFlags) :
    (s.postTime f).armedPast = s.armedPast := rfl
@[simp] theorem State.postTime_dueList (s : State) (f : TimeFlags) :
    (s.postTime f).dueList = s.dueList := rfl
@[simp] theorem State.postTime_lines (s : State) (f : TimeFlags) :
    (s.postTime f).lines = s.lines := rfl
@[simp] theorem State.postTime_triggers (s : State) (f : TimeFlags) :
    (s.postTime f).triggers = s.triggers := rfl
@[simp] theorem State.postTime_time (s : State) (f : TimeFlags) :
    (s.postTime f).time = s.time := rfl
@[simp] theorem State.postTime_ctl (s : State) (f : TimeFlags) :
    (s.postTime f).ctl = s.ctl := rfl
@[simp] theorem State.postTime_spi (s : State) (f : TimeFlags) :
    (s.postTime f).spi = s.spi := rfl
@[simp] theorem State.postTime_link (s : State) (f : TimeFlags) :
    (s.postTime f).link = s.link := rfl
@[simp] theorem State.postTime_pending (s : State) (f : TimeFlags) :
    (s.postTime f).pending = s.pending := rfl

/-! ### emptySlot -/

@[simp] theorem State.emptySlot_phase (s : State) (p : Port) :
    (s.emptySlot p).phase = s.phase := rfl
@[simp] theorem State.emptySlot_entries (s : State) (p : Port) :
    (s.emptySlot p).entries = s.entries := rfl
@[simp] theorem State.emptySlot_quotas (s : State) (p : Port) :
    (s.emptySlot p).quotas = s.quotas := rfl
@[simp] theorem State.emptySlot_armedPast (s : State) (p : Port) :
    (s.emptySlot p).armedPast = s.armedPast := rfl
@[simp] theorem State.emptySlot_dueList (s : State) (p : Port) :
    (s.emptySlot p).dueList = s.dueList := rfl
@[simp] theorem State.emptySlot_lines (s : State) (p : Port) :
    (s.emptySlot p).lines = s.lines := rfl
@[simp] theorem State.emptySlot_triggers (s : State) (p : Port) :
    (s.emptySlot p).triggers = s.triggers := rfl
@[simp] theorem State.emptySlot_notices (s : State) (p : Port) :
    (s.emptySlot p).notices = s.notices := rfl
@[simp] theorem State.emptySlot_time (s : State) (p : Port) :
    (s.emptySlot p).time = s.time := rfl
@[simp] theorem State.emptySlot_spi (s : State) (p : Port) :
    (s.emptySlot p).spi = s.spi := rfl
@[simp] theorem State.emptySlot_link (s : State) (p : Port) :
    (s.emptySlot p).link = s.link := rfl
@[simp] theorem State.emptySlot_pending (s : State) (p : Port) :
    (s.emptySlot p).pending = s.pending := rfl

/-! ### placeSpi -/

@[simp] theorem State.placeSpi_phase (s : State) (r : Response) :
    (s.placeSpi r).phase = s.phase := rfl
@[simp] theorem State.placeSpi_entries (s : State) (r : Response) :
    (s.placeSpi r).entries = s.entries := rfl
@[simp] theorem State.placeSpi_quotas (s : State) (r : Response) :
    (s.placeSpi r).quotas = s.quotas := rfl
@[simp] theorem State.placeSpi_armedPast (s : State) (r : Response) :
    (s.placeSpi r).armedPast = s.armedPast := rfl
@[simp] theorem State.placeSpi_dueList (s : State) (r : Response) :
    (s.placeSpi r).dueList = s.dueList := rfl
@[simp] theorem State.placeSpi_lines (s : State) (r : Response) :
    (s.placeSpi r).lines = s.lines := rfl
@[simp] theorem State.placeSpi_triggers (s : State) (r : Response) :
    (s.placeSpi r).triggers = s.triggers := rfl
@[simp] theorem State.placeSpi_notices (s : State) (r : Response) :
    (s.placeSpi r).notices = s.notices := rfl
@[simp] theorem State.placeSpi_time (s : State) (r : Response) :
    (s.placeSpi r).time = s.time := rfl
@[simp] theorem State.placeSpi_link (s : State) (r : Response) :
    (s.placeSpi r).link = s.link := rfl
@[simp] theorem State.placeSpi_pending (s : State) (r : Response) :
    (s.placeSpi r).pending = s.pending := rfl

/-! ### placeLink -/

@[simp] theorem State.placeLink_phase (s : State) (r : Response) :
    (s.placeLink r).phase = s.phase := rfl
@[simp] theorem State.placeLink_entries (s : State) (r : Response) :
    (s.placeLink r).entries = s.entries := rfl
@[simp] theorem State.placeLink_quotas (s : State) (r : Response) :
    (s.placeLink r).quotas = s.quotas := rfl
@[simp] theorem State.placeLink_armedPast (s : State) (r : Response) :
    (s.placeLink r).armedPast = s.armedPast := rfl
@[simp] theorem State.placeLink_dueList (s : State) (r : Response) :
    (s.placeLink r).dueList = s.dueList := rfl
@[simp] theorem State.placeLink_lines (s : State) (r : Response) :
    (s.placeLink r).lines = s.lines := rfl
@[simp] theorem State.placeLink_triggers (s : State) (r : Response) :
    (s.placeLink r).triggers = s.triggers := rfl
@[simp] theorem State.placeLink_notices (s : State) (r : Response) :
    (s.placeLink r).notices = s.notices := rfl
@[simp] theorem State.placeLink_time (s : State) (r : Response) :
    (s.placeLink r).time = s.time := rfl
@[simp] theorem State.placeLink_spi (s : State) (r : Response) :
    (s.placeLink r).spi = s.spi := rfl
@[simp] theorem State.placeLink_link (s : State) (r : Response) :
    (s.placeLink r).link = s.link := rfl
@[simp] theorem State.placeLink_pending (s : State) (r : Response) :
    (s.placeLink r).pending = s.pending := rfl

/-! ### The fields written -/

@[simp] theorem State.setEntry_entries (s : State) (e : EntryId) (a : Option Entry) :
    (s.setEntry e a).entries = s.entries.set e.val a e.isLt := rfl
@[simp] theorem State.unlist_dueList (s : State) (e : EntryId) :
    (s.unlist e).dueList = s.dueList.filter (· != e) := rfl
@[simp] theorem State.emptySlot_ctl (s : State) (p : Port) :
    (s.emptySlot p).ctl = { s.ctl with commands := s.ctl.commands.set p none, lastServed := p } := rfl
@[simp] theorem State.placeLink_ctl (s : State) (r : Response) :
    (s.placeLink r).ctl = { s.ctl with responses := s.ctl.responses.set .link (some r) } := rfl
@[simp] theorem State.placeSpi_ctl (s : State) (r : Response) :
    (s.placeSpi r).ctl =
      { s.ctl with
        responses :=
          s.ctl.responses.set .spi (some { r with overwrote := r.overwrote || s.ctl.responses.spi.isSome }) } := rfl
@[simp] theorem State.post_notices (s : State) (p : Port) (e : EntryId) (tag : BitVec 16) (f : EntryFlags) (due : Word) :
    (s.post p e tag f due).notices = s.notices.setQueue p (postEntry (s.notices.queues.get p) e tag f due) := rfl
@[simp] theorem State.postTime_notices (s : State) (f : TimeFlags) :
    (s.postTime f).notices = s.notices.setQueue .spi (postTimebase s.notices.queues.spi f) := rfl
@[simp] theorem State.setTrigger_triggers (s : State) (k : Fin 8) (r : Trigger) :
    (s.setTrigger k r).triggers = s.triggers.set k.val r k.isLt := rfl

end Sys2Proof.Machine
end

