-- ==== Sys2Proof/Laws/Ops.lean ====
section
/-!
SUPPORT. What each shared operation does, said once: reading a vector after a write, the pair of a port, the entry table
and its lists, the check order of a take, and its end. Later proofs cite these in place of the definitions.
-/
namespace Sys2Proof.Machine

/-! ### Vectors -/

theorem get_eq {α : Type} {n : Nat} (v : Vector α n) (i : Fin n) : v.get i = v[i.val] := rfl

theorem get_set {α : Type} {n : Nat} (v : Vector α n) (i : Nat) (h : i < n) (x : α) (j : Fin n) :
    (v.set i x h).get j = if j.val = i then x else v.get j := by
  simp only [get_eq, Vector.getElem_set]
  by_cases e : i = j.val
  · simp [e]
  · rw [if_neg e, if_neg fun h => e h.symm]

@[simp] theorem get_set_self {α : Type} {n : Nat} (v : Vector α n) (i : Fin n) (x : α) :
    (v.set i.val x i.isLt).get i = x := by simp [get_set]

theorem get_set_ne {α : Type} {n : Nat} (v : Vector α n) (i j : Fin n) (x : α) (h : j ≠ i) :
    (v.set i.val x i.isLt).get j = v.get j := by
  rw [get_set, if_neg fun e => h (Fin.ext e)]

@[simp] theorem get_ofFn {α : Type} {n : Nat} (f : Fin n → α) (i : Fin n) : (Vector.ofFn f).get i = f i := by
  simp [get_eq]

@[simp] theorem get_map {α β : Type} {n : Nat} (f : α → β) (v : Vector α n) (i : Fin n) :
    (v.map f).get i = f (v.get i) := by simp [get_eq]

@[simp] theorem get_replicate {α : Type} {n : Nat} (x : α) (i : Fin n) : (Vector.replicate n x).get i = x := by
  simp [get_eq]

theorem vector_ext {α : Type} {n : Nat} {v w : Vector α n} (h : ∀ i, v.get i = w.get i) : v = w := by
  apply Vector.ext
  intro i hi
  exact h ⟨i, hi⟩

/-! ### One value for each port -/

@[simp] theorem PerPort.get_set_self {α : Type} (v : PerPort α) (p : Port) (a : α) : (v.set p a).get p = a := by
  cases p <;> rfl

@[simp] theorem PerPort.get_set_other {α : Type} (v : PerPort α) (p : Port) (a : α) :
    (v.set p a).get p.other = v.get p.other := by cases p <;> rfl

@[simp] theorem Port.other_other (p : Port) : p.other.other = p := by cases p <;> rfl

theorem Port.other_ne (p : Port) : p.other ≠ p := by cases p <;> decide

theorem Port.ne_iff (p q : Port) : p ≠ q ↔ p = q.other := by cases p <;> cases q <;> decide

/-! ### The entry table -/

@[simp] theorem State.entry_setEntry (s : State) (e x : EntryId) (a : Option Entry) :
    (s.setEntry e a).entry x = if x = e then a else s.entry x := by
  simp only [State.entry, State.setEntry_entries, get_set, Fin.ext_iff]

@[simp] theorem State.entry_unlist (s : State) (e x : EntryId) : (s.unlist e).entry x = s.entry x := rfl

@[simp] theorem State.entry_emptySlot (s : State) (p : Port) (x : EntryId) : (s.emptySlot p).entry x = s.entry x := rfl

@[simp] theorem State.entry_appendPark (s : State) (k : Fin 8) (e x : EntryId) :
    (s.appendPark k e).entry x = s.entry x := rfl

@[simp] theorem State.entry_post (s : State) (p : Port) (e : EntryId) (tag : BitVec 16) (f : EntryFlags) (due : Word)
    (x : EntryId) : (s.post p e tag f due).entry x = s.entry x := rfl

@[simp] theorem State.ownedCount_emptySlot (s : State) (p q : Port) : (s.emptySlot p).ownedCount q = s.ownedCount q := rfl

@[simp] theorem State.keyOf_emptySlot (s : State) (p : Port) (x : EntryId) : (s.emptySlot p).keyOf x = s.keyOf x := rfl

@[simp] theorem State.keyOf_unlist (s : State) (e x : EntryId) : (s.unlist e).keyOf x = s.keyOf x := rfl

/-- The wait is said of the keys and the record alone (R27). -/
theorem State.waited_congr {s t : State} {e : EntryId} (hk : t.keyOf e = s.keyOf e)
    (ha : t.armedPast.get e = s.armedPast.get e) : t.waited e = s.waited e := by
  simp [State.waited, hk, ha]

theorem ownedBy_iff (p : Port) (r : Option Entry) : ownedBy p r = true ↔ ∃ a, r = some a ∧ a.owner = p := by
  cases r <;> simp [ownedBy]

@[simp] theorem entryOfByte_entryByte (e : EntryId) : entryOfByte (entryByte e) = e := rfl

@[simp] theorem entryByte_entryOfByte (b : Byte) : entryByte (entryOfByte b) = b := rfl

/-! ### The lists -/

theorem insertBy_split (key : EntryId → Int) (k : Int) (e : EntryId) (l : List EntryId) :
    ∃ before after, insertBy key k e l = before ++ e :: after ∧ before ++ after = l ∧
      (∀ x ∈ before, key x ≤ k) ∧ ∀ x ∈ after.head?, k < key x := by
  induction l with
  | nil => exact ⟨[], [], rfl, rfl, by simp, by simp⟩
  | cons y ys ih =>
    unfold insertBy
    split
    · obtain ⟨b, a, h1, h2, h3, h4⟩ := ih
      refine ⟨y :: b, a, by simp [h1], by simp [h2], ?_, h4⟩
      intro x hx
      rcases List.mem_cons.1 hx with rfl | hx
      · assumption
      · exact h3 x hx
    · exact ⟨[], y :: ys, rfl, rfl, by simp, by intro x hx; simp at hx; subst hx; omega⟩

theorem mem_insertBy (key : EntryId → Int) (k : Int) (e x : EntryId) (l : List EntryId) :
    x ∈ insertBy key k e l ↔ x = e ∨ x ∈ l := by
  obtain ⟨b, a, h1, h2, -, -⟩ := insertBy_split key k e l
  rw [h1, ← h2]
  simp only [List.mem_append, List.mem_cons]
  grind

theorem State.unlist_triggers (s : State) (e : EntryId) (k : Fin 8) :
    (s.unlist e).triggers.get k =
      { s.triggers.get k with park := (s.triggers.get k).park.filter (· != e) } := by
  simp [State.unlist]

theorem State.appendPark_triggers (s : State) (t k : Fin 8) (e : EntryId) :
    (s.appendPark t e).triggers.get k =
      { s.triggers.get k with park := (s.triggers.get k).park ++ if k = t then [e] else [] } := by
  simp only [State.appendPark, get_set, ← Fin.ext_iff]
  split <;> simp_all

theorem State.place_entry (s : State) (e x : EntryId) (a : Entry) :
    (s.place e a).entry x = if x = e then some a else s.entry x := by
  unfold State.place
  split
  · exact State.entry_setEntry s e x (some a)
  · split <;> simp
  · simp
  · simp

theorem State.move_entry (s : State) (e x : EntryId) (a : Entry) :
    (s.move e a).entry x = if x = e then some a else s.entry x := by
  simp [State.move, State.place_entry]

theorem State.place_frame (s : State) (e : EntryId) (a : Entry) :
    s.place e a =
      { s with entries := (s.place e a).entries, dueList := (s.place e a).dueList,
               armedPast := (s.place e a).armedPast, triggers := (s.place e a).triggers } := by
  unfold State.place
  split
  · rfl
  · split <;> rfl
  · rfl
  · rfl

theorem State.move_frame (s : State) (e : EntryId) (a : Entry) :
    s.move e a =
      { s with entries := (s.move e a).entries, dueList := (s.move e a).dueList,
               armedPast := (s.move e a).armedPast, triggers := (s.move e a).triggers } := by
  have h := State.place_frame (s.unlist e) e a
  exact h

/-- The record of how far a due was past changes for an entry that joins the due list alone (R27). -/
theorem State.place_armedPast (s : State) (e : EntryId) (a : Entry) :
    (s.place e a).armedPast =
      match a.state with
      | .armed due => s.armedPast.set e.val (ticksPast due s.time.count) e.isLt
      | _ => s.armedPast := by
  unfold State.place
  split <;> simp_all
  split <;> rfl

theorem State.move_armedPast (s : State) (e : EntryId) (a : Entry) :
    (s.move e a).armedPast =
      match a.state with
      | .armed due => s.armedPast.set e.val (ticksPast due s.time.count) e.isLt
      | _ => s.armedPast :=
  State.place_armedPast (s.unlist e) e a

/-! ### The check order -/

@[simp] theorem exactly_eq (n k : Nat) : exactly n k = decide (k = n) := by
  unfold exactly
  by_cases h : k = n <;> simp [h]

theorem takeCommand_taken {code : Byte} {c : Cmd} {s : State} (lengthOk : Nat → Bool) (permit : Permit)
    (run : Port → List Byte → State → Answer) (h : s.takes code c = true) :
    takeCommand code lengthOk permit run c s =
      (checked lengthOk permit run c.src.port c.body (s.emptySlot c.src.port)).finish code c := by
  simp [takeCommand, h]

theorem takeCommand_not_taken {code : Byte} {c : Cmd} {s : State} (lengthOk : Nat → Bool) (permit : Permit)
    (run : Port → List Byte → State → Answer) (h : s.takes code c = false) :
    takeCommand code lengthOk permit run c s = s := by
  simp [takeCommand, h]

theorem checked_run {lengthOk : Nat → Bool} {permit : Permit} (run : Port → List Byte → State → Answer) {p : Port}
    {body : List Byte} (s : State) (hl : lengthOk body.length = true) (hp : permit.admits p = true) :
    checked lengthOk permit run p body s = run p body s := by
  simp [checked, hl, hp]

theorem withBody_some {α : Type} {read : List Byte → Option α} {body : List Byte} {a : α} (s : State)
    (run : α → Answer) (h : read body = some a) : withBody read body s run = run a := by
  simp [withBody, h]

theorem withBody_none {α : Type} {read : List Byte → Option α} {body : List Byte} (s : State) (run : α → Answer)
    (h : read body = none) : withBody read body s run = Answer.refuse .range s := by
  simp [withBody, h]

theorem withOwned_some {p : Port} {e : EntryId} {s : State} {a : Entry} (run : Entry → Answer)
    (h : s.entry e = some a) (ho : a.owner = p) : withOwned p e s run = run a := by
  simp [withOwned, h, ho]

theorem withOwned_none {p : Port} {e : EntryId} {s : State} (run : Entry → Answer) (h : s.entry e = none) :
    withOwned p e s run = Answer.refuse .noEntry s := by
  simp [withOwned, h]

theorem withOwned_other {p : Port} {e : EntryId} {s : State} {a : Entry} (run : Entry → Answer)
    (h : s.entry e = some a) (ho : a.owner ≠ p) : withOwned p e s run = Answer.refuse .notOwner s := by
  simp [withOwned, h, ho]

/-! ### The end of a take -/

theorem State.settlePending_frame (s : State) : s.settlePending = { s with link := s.settlePending.link } := by
  unfold State.settlePending
  split <;> rfl

theorem State.settlePending_link (s : State) :
    s.settlePending.link = if s.linkIdle then s.link.applyPending else s.link := by
  unfold State.settlePending
  split <;> rfl

@[simp] theorem LinkPort.applyPending_receiver (k : LinkPort) : k.applyPending.receiver = k.receiver := by
  unfold LinkPort.applyPending; split <;> rfl

@[simp] theorem LinkPort.applyPending_insideChar (k : LinkPort) : k.applyPending.insideChar = k.insideChar := by
  unfold LinkPort.applyPending; split <;> rfl

@[simp] theorem LinkPort.applyPending_transmitter (k : LinkPort) : k.applyPending.transmitter = k.transmitter := by
  unfold LinkPort.applyPending; split <;> rfl

@[simp] theorem LinkPort.applyPending_lastError (k : LinkPort) : k.applyPending.lastError = k.lastError := by
  unfold LinkPort.applyPending; split <;> rfl

@[simp] theorem LinkPort.applyPending_address (k : LinkPort) : k.applyPending.address = k.address := by
  unfold LinkPort.applyPending; split <;> rfl

@[simp] theorem LinkPort.applyPending_pendingSettings (k : LinkPort) : k.applyPending.pendingSettings = none := by
  unfold LinkPort.applyPending; split <;> simp_all

/-- Everything that the transmit arbiter does: nothing where no transmission is due, or it begins the waiting response,
or else the marker, whose request becomes none (R171). -/
theorem State.beginSending_outcome (s : State) :
    (s.sendDue = false ∧ s.beginSending = s) ∨
      (s.link.lineReady = true ∧ ∃ r, s.ctl.responses.link = some r ∧
        s.beginSending = { s with link := s.link.send .response (responseBytes r) }) ∨
      (s.link.lineReady = true ∧ s.ctl.responses.link = none ∧ s.notices.marker = true ∧
        s.beginSending = { s with link := s.link.send .marker [Config.markerChar]
                                  notices := { s.notices with marker := false } }) := by
  unfold State.beginSending State.sendDue
  cases hl : s.link.lineReady with
  | false => exact .inl ⟨by simp, by simp⟩
  | true =>
    cases hr : s.ctl.responses.link with
    | some r => exact .inr (.inl ⟨rfl, r, rfl, by simp⟩)
    | none =>
      cases hm : s.notices.marker with
      | false => exact .inl ⟨by simp, by simp⟩
      | true => exact .inr (.inr ⟨rfl, rfl, rfl, by simp⟩)

theorem State.beginSending_none {s : State} (h : s.sendDue = false) : s.beginSending = s := by
  rcases s.beginSending_outcome with ⟨-, h'⟩ | ⟨hl, r, hr, -⟩ | ⟨hl, -, hm, -⟩
  · exact h'
  · simp [State.sendDue, hl, hr] at h
  · simp [State.sendDue, hl, hm] at h

theorem State.beginSending_frame (s : State) :
    s.beginSending =
      { s with
        link := s.beginSending.link
        notices := { s.notices with marker := s.beginSending.notices.marker } } := by
  rcases s.beginSending_outcome with ⟨-, h⟩ | ⟨-, r, -, h⟩ | ⟨-, -, -, h⟩ <;> rw [h]

@[simp] theorem LinkPort.lineReady_send (k : LinkPort) (what : SentFrame) (bytes : List Byte) :
    (k.send what bytes).lineReady = false := by
  simp [LinkPort.lineReady, LinkPort.lineFree, LinkPort.send]

@[simp] theorem State.sendDue_beginSending (s : State) : s.beginSending.sendDue = false := by
  rcases s.beginSending_outcome with ⟨h', h⟩ | ⟨-, r, -, h⟩ | ⟨-, -, -, h⟩ <;> rw [h]
  · exact h'
  all_goals simp [State.sendDue]

/-- No transmission is due after an event that settles the link (R171). -/
@[simp] theorem State.sendDue_settleLink (s : State) : s.settleLink.sendDue = false :=
  State.sendDue_beginSending s.settlePending

/-- On an idle link nothing waits to be sent (R171, R175). -/
theorem State.sendDue_of_linkIdle {s : State} (h : s.linkIdle = true) : s.sendDue = false := by
  simp_all [State.linkIdle, State.sendDue]

theorem State.linkIdle_settlePending (s : State) : s.settlePending.linkIdle = s.linkIdle := by
  unfold State.settlePending
  split
  · simp_all [State.linkIdle, LinkPort.lineFree]
  · rfl

/-- Settling an idle link brings pending settings into force and does nothing more. -/
theorem State.settleLink_idle {s : State} (h : s.linkIdle = true) :
    s.settleLink = { s with link := s.link.applyPending } := by
  have hs : s.settlePending = { s with link := s.link.applyPending } := by simp [State.settlePending, h]
  unfold State.settleLink
  rw [State.beginSending_none (State.sendDue_of_linkIdle (by rw [State.linkIdle_settlePending, h])), hs]

/-- Settling a link that is not idle is the transmit arbiter's choice. -/
theorem State.settleLink_busy {s : State} (h : s.linkIdle = false) : s.settleLink = s.beginSending := by
  simp [State.settleLink, State.settlePending, h]

theorem State.settleLink_frame (s : State) :
    s.settleLink =
      { s with link := s.settleLink.link, notices := { s.notices with marker := s.settleLink.notices.marker } } := by
  cases h : s.linkIdle with
  | true => rw [State.settleLink_idle h]
  | false =>
    rw [State.settleLink_busy h]
    exact s.beginSending_frame

/-! ### What settling the link leaves -/

@[simp] theorem State.settleLink_phase (s : State) : s.settleLink.phase = s.phase := by
  rw [State.settleLink_frame]

@[simp] theorem State.settleLink_entries (s : State) : s.settleLink.entries = s.entries := by
  rw [State.settleLink_frame]

@[simp] theorem State.settleLink_quotas (s : State) : s.settleLink.quotas = s.quotas := by
  rw [State.settleLink_frame]

@[simp] theorem State.settleLink_dueList (s : State) : s.settleLink.dueList = s.dueList := by
  rw [State.settleLink_frame]

@[simp] theorem State.settleLink_armedPast (s : State) : s.settleLink.armedPast = s.armedPast := by
  rw [State.settleLink_frame]

@[simp] theorem State.settleLink_lines (s : State) : s.settleLink.lines = s.lines := by
  rw [State.settleLink_frame]

@[simp] theorem State.settleLink_triggers (s : State) : s.settleLink.triggers = s.triggers := by
  rw [State.settleLink_frame]

@[simp] theorem State.settleLink_ctl (s : State) : s.settleLink.ctl = s.ctl := by
  rw [State.settleLink_frame]

@[simp] theorem State.settleLink_spi (s : State) : s.settleLink.spi = s.spi := by
  rw [State.settleLink_frame]

@[simp] theorem State.settleLink_pending (s : State) : s.settleLink.pending = s.pending := by
  rw [State.settleLink_frame]

@[simp] theorem State.settleLink_queues (s : State) : s.settleLink.notices.queues = s.notices.queues := by
  rw [State.settleLink_frame]

@[simp] theorem State.settleLink_signalling (s : State) : s.settleLink.notices.signalling = s.notices.signalling := by
  rw [State.settleLink_frame]

@[simp] theorem State.settleLink_consume (s : State) : s.settleLink.notices.consume = s.notices.consume := by
  rw [State.settleLink_frame]

@[simp] theorem State.entry_settleLink (s : State) (e : EntryId) : s.settleLink.entry e = s.entry e := by
  simp [State.entry]

/-! ### The time count of a take -/

@[simp] theorem State.reply_time (s : State) (src : Source) (r : Response) : (s.reply src r).time = s.time := by
  cases src <;> rfl

@[simp] theorem State.settleLink_time (s : State) : s.settleLink.time = s.time := by
  rw [State.settleLink_frame]

theorem Answer.finish_time (code : Byte) (c : Cmd) (a : Answer) : (a.finish code c).time = a.state.time := by
  simp [Answer.finish]

end Sys2Proof.Machine
end

