-- ==== Sys2Proof/Laws/Bytes.lean ====
section
/-!
SUPPORT. Fields and their bytes, the bits of flag bytes, and the levels of a group under a pattern.
-/
namespace Sys2Proof.Machine

/-! ### Fields and bytes (R180) -/

theorem le16_bytes16 (w : BitVec 16) : le16 (w.extractLsb' 0 8) (w.extractLsb' 8 8) = w := by
  apply BitVec.eq_of_getLsbD_eq
  intro i hi
  simp only [le16, BitVec.getLsbD_append, BitVec.getLsbD_extractLsb']
  grind

theorem le32_bytes32 (w : Word) :
    le32 (w.extractLsb' 0 8) (w.extractLsb' 8 8) (w.extractLsb' 16 8) (w.extractLsb' 24 8) = w := by
  apply BitVec.eq_of_getLsbD_eq
  intro i hi
  simp only [le32, BitVec.getLsbD_append, BitVec.getLsbD_extractLsb']
  grind

theorem bytes32_le32 (a b c d : Byte) : bytes32 (le32 a b c d) = [a, b, c, d] := by
  simp only [bytes32, List.cons.injEq, and_true]
  refine ⟨?_, ?_, ?_, ?_⟩ <;> apply BitVec.eq_of_getLsbD_eq <;> intro i hi <;>
    simp only [le32, BitVec.getLsbD_append, BitVec.getLsbD_extractLsb'] <;> grind

theorem bytes16_le16 (a b : Byte) : bytes16 (le16 a b) = [a, b] := by
  simp only [bytes16, List.cons.injEq, and_true]
  refine ⟨?_, ?_⟩ <;> apply BitVec.eq_of_getLsbD_eq <;> intro i hi <;>
    simp only [le16, BitVec.getLsbD_append, BitVec.getLsbD_extractLsb'] <;> grind

theorem length_bytes16 (w : BitVec 16) : (bytes16 w).length = 2 := rfl

theorem length_bytes32 (w : Word) : (bytes32 w).length = 4 := rfl

theorem length_noticeRecord (i : NoticeItem) : (noticeRecord i).length = 11 := by cases i <;> rfl

theorem length_frameBytes (inner : List Byte) : (frameBytes inner).length = inner.length + 2 := by
  simp [frameBytes]

/-- The CHECK of a frame the part forms is right (R182). -/
theorem checkOk_frameBytes (inner : List Byte) : checkOk (frameBytes inner) = true := by
  unfold checkOk frameBytes
  dsimp only
  rw [List.getLast?_concat, List.dropLast_concat]
  simp

/-! ### Flag bytes -/

@[simp] theorem bitAt_false (n : Nat) : bitAt false n = 0 := rfl

theorem getLsbD_bitAt (b : Bool) (n i : Nat) (h : n < 8) : (bitAt b n).getLsbD i = (b && decide (i = n)) := by
  cases b
  · simp [bitAt]
  · have hn : n = 0 ∨ n = 1 ∨ n = 2 ∨ n = 3 ∨ n = 4 ∨ n = 5 ∨ n = 6 ∨ n = 7 := by omega
    by_cases hi : i < 8
    · have hi' : i = 0 ∨ i = 1 ∨ i = 2 ∨ i = 3 ∨ i = 4 ∨ i = 5 ∨ i = 6 ∨ i = 7 := by omega
      rcases hn with rfl | rfl | rfl | rfl | rfl | rfl | rfl | rfl <;>
        rcases hi' with rfl | rfl | rfl | rfl | rfl | rfl | rfl | rfl <;> decide
    · rw [BitVec.getLsbD_of_ge _ _ (by omega)]
      simp
      omega

/-! ### Levels and patterns (R60) -/

theorem getLsbD_withPattern (levels : BitVec 16) (g : Fin 4) (pattern : BitVec 4) (i : Nat) (h : i < 16) :
    (withPattern levels g pattern).getLsbD i =
      if i / 4 = g.val then pattern.getLsbD (i - 4 * g.val) else levels.getLsbD i := by
  have hf : ∀ j : Fin 16, ∀ k : Fin 4, ((0xF : BitVec 16) <<< firstLine k).getLsbD j.val = decide (j.val / 4 = k.val) := by
    decide
  have hg := hf ⟨i, h⟩ g
  simp only [withPattern, BitVec.getLsbD_or, BitVec.getLsbD_and, BitVec.getLsbD_not, hg]
  simp only [BitVec.getLsbD_shiftLeft, BitVec.getLsbD_setWidth, firstLine]
  by_cases hd : i / 4 = g.val
  · have h1 : ¬ i < 4 * g.val := by omega
    simp [hd, h, h1]
    omega
  · rw [if_neg hd]
    by_cases hlt : i < 4 * g.val
    · simp [hd, h, hlt]
    · have : 4 ≤ i - 4 * g.val := by omega
      simp [hd, h, BitVec.getLsbD_of_ge _ _ this]

theorem groupLevels_withPattern_self (levels : BitVec 16) (g : Fin 4) (pattern : BitVec 4) :
    groupLevels (withPattern levels g pattern) g = pattern := by
  apply BitVec.eq_of_getLsbD_eq
  intro i hi
  have hg := g.isLt
  simp only [groupLevels, BitVec.getLsbD_extractLsb', firstLine, hi, decide_true, Bool.true_and]
  rw [getLsbD_withPattern _ _ _ _ (by omega), if_pos (by omega)]
  congr 1
  omega

theorem groupLevels_withPattern_ne (levels : BitVec 16) (g h : Fin 4) (pattern : BitVec 4) (hne : h ≠ g) :
    groupLevels (withPattern levels g pattern) h = groupLevels levels h := by
  apply BitVec.eq_of_getLsbD_eq
  intro i hi
  have hg := h.isLt
  have hv : h.val ≠ g.val := fun e => hne (Fin.ext e)
  simp only [groupLevels, BitVec.getLsbD_extractLsb', firstLine, hi, decide_true, Bool.true_and]
  rw [getLsbD_withPattern _ _ _ _ (by omega), if_neg (by omega)]

/-- A group put in place shows its pattern in SEQUENCE mode, and the levels of LINES mode stay (R60). -/
theorem LineUnit.putGroup_levels (u : LineUnit) (g h : Fin 4) (group : Group) :
    groupLevels (u.putGroup g group).levels h =
      if h = g ∧ group.mode = .sequence then group.pattern else groupLevels u.levels h := by
  unfold LineUnit.putGroup
  dsimp only
  by_cases hm : group.mode = .sequence
  · by_cases hh : h = g
    · subst hh
      simp [hm, groupLevels_withPattern_self]
    · simp [hm, hh, groupLevels_withPattern_ne _ _ _ _ hh]
  · simp [hm]

theorem LineUnit.putGroup_groups (u : LineUnit) (g h : Fin 4) (group : Group) :
    (u.putGroup g group).groups.get h = if h = g then group else u.groups.get h := by
  simp only [LineUnit.putGroup, get_set, Fin.ext_iff]

end Sys2Proof.Machine
end

