-- ==== Sys2Proof/Laws/Line.lean ====
section
/-!
SUPPORT. The bits of an SPI transaction and the samples of the link line, said once: what hearing samples leaves and
writes, when samples hold a start bit, and how bits become bytes and characters.
-/
namespace Sys2Proof.Machine

/-! ### Samples of RXD (R161, R167, R170) -/

@[simp] theorem LinkPort.hear_nil (k : LinkPort) : k.hear [] = k := rfl

@[simp] theorem LinkPort.hear_cons (k : LinkPort) (b : Bool) (rest : List Bool) :
    k.hear (b :: rest) = (k.sample b).hear rest := rfl

/-- Hearing samples writes the level, the idle count and the gap, and nothing else. -/
theorem LinkPort.hear_frame (k : LinkPort) (rxd : List Bool) :
    k.hear rxd =
      { k with
        rxdHigh := (k.hear rxd).rxdHigh, idleSamples := (k.hear rxd).idleSamples
        sinceChar := (k.hear rxd).sinceChar } := by
  induction rxd generalizing k with
  | nil => rfl
  | cons b rest ih =>
    rw [LinkPort.hear_cons, ih]
    rfl

@[simp] theorem LinkPort.hear_receiver (k : LinkPort) (rxd : List Bool) : (k.hear rxd).receiver = k.receiver := by
  rw [k.hear_frame]

@[simp] theorem LinkPort.hear_settings (k : LinkPort) (rxd : List Bool) : (k.hear rxd).settings = k.settings := by
  rw [k.hear_frame]

@[simp] theorem LinkPort.hear_pendingSettings (k : LinkPort) (rxd : List Bool) :
    (k.hear rxd).pendingSettings = k.pendingSettings := by rw [k.hear_frame]

@[simp] theorem LinkPort.hear_address (k : LinkPort) (rxd : List Bool) : (k.hear rxd).address = k.address := by
  rw [k.hear_frame]

@[simp] theorem LinkPort.hear_lastError (k : LinkPort) (rxd : List Bool) : (k.hear rxd).lastError = k.lastError := by
  rw [k.hear_frame]

@[simp] theorem LinkPort.hear_insideChar (k : LinkPort) (rxd : List Bool) :
    (k.hear rxd).insideChar = k.insideChar := by rw [k.hear_frame]

@[simp] theorem LinkPort.hear_transmitter (k : LinkPort) (rxd : List Bool) :
    (k.hear rxd).transmitter = k.transmitter := by rw [k.hear_frame]

@[simp] theorem LinkPort.hear_divider (k : LinkPort) (rxd : List Bool) : (k.hear rxd).divider = k.divider := by
  rw [k.hear_frame]

/-- Samples at 1 raise the idle count one by one, up to Q bit-times (R170). -/
theorem LinkPort.hear_high (k : LinkPort) (n : Nat) (h : n ≠ 0) :
    (k.hear (List.replicate n true)).idleSamples = min (k.idleSamples + n) (16 * k.settings.q.toNat) := by
  induction n generalizing k with
  | zero => exact absurd rfl h
  | succ n ih =>
    rw [List.replicate_succ, LinkPort.hear_cons]
    by_cases hn : n = 0
    · subst hn
      simp [LinkPort.sample, Config.bitSamples]
    · rw [ih _ hn]
      simp only [LinkPort.sample, Config.bitSamples, if_true]
      omega

/-- The idle count never passes Q (R170). -/
theorem LinkPort.hear_idle_le (k : LinkPort) (rxd : List Bool) (h : k.idleCount ≤ k.settings.q.toNat) :
    (k.hear rxd).idleCount ≤ k.settings.q.toNat := by
  induction rxd generalizing k with
  | nil => exact h
  | cons b rest ih =>
    apply ih (k.sample b)
    simp only [LinkPort.idleCount, LinkPort.sample, Config.bitSamples] at h ⊢
    split <;> omega

/-- Samples hold a start bit when one at 0 follows one at 1 (R161). -/
theorem falls_iff (high : Bool) (rxd : List Bool) :
    falls high rxd = true ↔ ∃ before after, high :: rxd = before ++ true :: false :: after := by
  induction rxd generalizing high with
  | nil =>
    simp only [falls, Bool.false_eq_true, false_iff, not_exists]
    intro before after h
    cases before with
    | nil => simp at h
    | cons x xs => simp at h
  | cons b rest ih =>
    simp only [falls, Bool.or_eq_true, Bool.and_eq_true, Bool.not_eq_true', ih]
    constructor
    · rintro (⟨rfl, rfl⟩ | ⟨before, after, h⟩)
      · exact ⟨[], rest, rfl⟩
      · exact ⟨high :: before, after, by rw [h]; rfl⟩
    · rintro ⟨before, after, h⟩
      cases before with
      | nil =>
        simp only [List.nil_append, List.cons.injEq] at h
        exact .inl ⟨h.1, h.2.1⟩
      | cons x xs =>
        simp only [List.cons_append, List.cons.injEq] at h
        exact .inr ⟨xs, after, h.2⟩

/-- The vote of three samples counts those at 1 (R161). -/
theorem voted_eq_count (a b c : Bool) : voted a b c = decide (2 ≤ [some a, some b, some c].count (some true)) := by
  cases a <;> cases b <;> cases c <;> rfl

/-- A bit of a character is the vote of samples 7, 8 and 9 of its bit-time (R161). -/
theorem readBit_eq_count (samples : List Bool) (bit : Nat) (h : 16 * bit + 9 < samples.length) :
    readBit samples bit =
      decide (2 ≤ [samples[16 * bit + 7]?, samples[16 * bit + 8]?, samples[16 * bit + 9]?].count (some true)) := by
  have h7 : 16 * bit + 7 < samples.length := by omega
  have h8 : 16 * bit + 8 < samples.length := by omega
  simp only [readBit, Config.bitSamples, List.getD_eq_getElem?_getD, List.getElem?_eq_getElem h,
    List.getElem?_eq_getElem h7, List.getElem?_eq_getElem h8, Option.getD_some, voted_eq_count]

/-! ### Bytes from bits (R146, R161) -/

theorem byteOfBits_getLsbD (b7 b6 b5 b4 b3 b2 b1 b0 : Bool) (i : Nat) :
    (byteOfBits b7 b6 b5 b4 b3 b2 b1 b0).getLsbD i = ([b0, b1, b2, b3, b4, b5, b6, b7][i]?).getD false := by
  simp only [byteOfBits, BitVec.getLsbD_or, getLsbD_bitAt _ _ _ (show 7 < 8 by decide),
    getLsbD_bitAt _ _ _ (show 6 < 8 by decide), getLsbD_bitAt _ _ _ (show 5 < 8 by decide),
    getLsbD_bitAt _ _ _ (show 4 < 8 by decide), getLsbD_bitAt _ _ _ (show 3 < 8 by decide),
    getLsbD_bitAt _ _ _ (show 2 < 8 by decide), getLsbD_bitAt _ _ _ (show 1 < 8 by decide),
    getLsbD_bitAt _ _ _ (show 0 < 8 by decide)]
  by_cases hi : i < 8
  · have hi' : i = 0 ∨ i = 1 ∨ i = 2 ∨ i = 3 ∨ i = 4 ∨ i = 5 ∨ i = 6 ∨ i = 7 := by omega
    rcases hi' with rfl | rfl | rfl | rfl | rfl | rfl | rfl | rfl <;> simp
  · rw [List.getElem?_eq_none (by simp; omega)]
    simp
    omega

theorem byteOfBits_getLsbD_self (b : Byte) :
    byteOfBits (b.getLsbD 7) (b.getLsbD 6) (b.getLsbD 5) (b.getLsbD 4) (b.getLsbD 3) (b.getLsbD 2) (b.getLsbD 1)
      (b.getLsbD 0) = b := by
  apply BitVec.eq_of_getLsbD_eq
  intro i hi
  rw [byteOfBits_getLsbD]
  have hi' : i = 0 ∨ i = 1 ∨ i = 2 ∨ i = 3 ∨ i = 4 ∨ i = 5 ∨ i = 6 ∨ i = 7 := by omega
  rcases hi' with rfl | rfl | rfl | rfl | rfl | rfl | rfl | rfl <;> rfl

@[simp] theorem length_spiBits (b : Byte) : (spiBits b).length = 8 := rfl

theorem spiBytes_short (part : List Bool) (h : part.length < 8) : spiBytes part = [] := by
  unfold spiBytes
  split
  · simp only [List.length_cons] at h
    omega
  · rfl

/-- A byte's eight bits and what follows give the byte and what follows (R146). -/
theorem spiBytes_spiBits_append (b : Byte) (rest : List Bool) : spiBytes (spiBits b ++ rest) = b :: spiBytes rest := by
  show byteOfBits _ _ _ _ _ _ _ _ :: spiBytes rest = _
  rw [byteOfBits_getLsbD_self]

/-- The kind byte of a transaction (R148). -/
theorem kindAfter_spiBits (kind : Byte) (rest : List Bool) : kindAfter (spiBits kind ++ rest) = some (kindOf kind) := by
  simp [kindAfter, spiBytes_spiBits_append]

theorem kindAfter_short (sdi : List Bool) (h : sdi.length < 8) : kindAfter sdi = none := by
  simp [kindAfter, spiBytes_short sdi h]

theorem dataBytes_spiBits (kind : Byte) (rest : List Bool) : dataBytes (spiBits kind ++ rest) = spiBytes rest := by
  simp [dataBytes, spiBytes_spiBits_append]

@[simp] theorem length_padded (bits : List Bool) (n : Nat) : (padded bits n).length = n := by
  simp only [padded, List.length_append, List.length_take, List.length_replicate]
  omega

end Sys2Proof.Machine
end

