-- ==== Sys2Proof/Laws/Clock.lean ====
section
/-!
SUPPORT. What the clock may change, and how the rise of SEL ends: each operation said once.
-/
namespace Sys2Proof.Machine

/-! ### Cycles of the selected clock (R117, R118) -/

/-- When the engine fires first, said of the due list: an entry has waited 65535 ticks or stands at the most negative
difference (R27). -/
theorem State.firesFirst_iff (s : State) :
    s.firesFirst = true ↔ ∃ e ∈ s.dueList, 65535 ≤ s.waited e ∨ s.keyOf e = Config.mostPast := by
  simp [State.firesFirst, State.mustFire, Config.promptTicks]

/-- Everything that cycles do: nothing, a higher prescaler count below 2^k, or the tick that completes 2^k. -/
theorem State.cycles_outcome (s : State) (n : Nat) :
    s.cycles n = s ∨
      (s.time.prescaler + n < s.time.tickCycles ∧
        s.cycles n = { s with time := { s.time with prescaler := s.time.prescaler + n } }) ∨
      (s.firesFirst = false ∧ s.cycles n = { s with time := s.time.ticked }) := by
  unfold State.cycles
  split
  · split
    · exact .inr (.inl ⟨‹_›, rfl⟩)
    · split
      · exact .inr (.inr ⟨And.right ‹_›, rfl⟩)
      · exact .inl rfl
  · exact .inl rfl

/-- Cycles change the time base alone. -/
theorem State.cycles_frame (s : State) (n : Nat) : s.cycles n = { s with time := (s.cycles n).time } := by
  rcases s.cycles_outcome n with h | ⟨-, h⟩ | ⟨-, h⟩ <;> rw [h]

theorem State.cycleByCycle_frame (n : Nat) (s : State) :
    State.cycleByCycle n s = { s with time := (State.cycleByCycle n s).time } := by
  induction n generalizing s with
  | zero => rfl
  | succ n ih =>
    rw [State.cycleByCycle, ih, s.cycles_frame]

/-- A property of the part that cycles keep is kept by any number of single cycles. -/
theorem State.cycleByCycle_keeps {p : State → Prop} (step : ∀ s, p s → p (s.cycles 1)) (n : Nat) (s : State) (h : p s) :
    p (State.cycleByCycle n s) := by
  induction n generalizing s with
  | zero => exact h
  | succ n ih => exact ih _ (step s h)

/-- Cycles leave the last sample of the FREEZE pin. -/
theorem State.cycles_freezeSample (s : State) (n : Nat) :
    (s.cycles n).time.freezeSample = s.time.freezeSample := by
  rcases s.cycles_outcome n with h | ⟨-, h⟩ | ⟨-, h⟩ <;> rw [h]
  rfl

/-- Everything that the end of a transmission writes. -/
theorem State.endSending_frame (s : State) (what : SentFrame) :
    s.endSending what = { s with ctl := (s.endSending what).ctl, link := (s.endSending what).link } := rfl

/-- A gap's end leaves everything of the link port but the frame in assembly and its error. -/
theorem LinkPort.endGap_frame (k : LinkPort) :
    k.endGap =
      { k with receiver := k.endGap.receiver, lastError := k.endGap.lastError, sinceChar := k.endGap.sinceChar } := by
  unfold LinkPort.endGap LinkPort.abandon
  split <;> rfl

/-- A cycle of REFCLK on the line changes the link port and the link response slot alone. -/
theorem State.lineCycle_frame (s : State) :
    s.lineCycle =
      { s with
        ctl := { s.ctl with responses := s.lineCycle.ctl.responses }
        link := s.lineCycle.link } := by
  unfold State.lineCycle State.restPeriod
  repeat' split
  all_goals rfl

/-- A cycle of REFCLK on the line leaves address, settings and whether the receiver is inside a character. -/
theorem State.lineCycle_link (s : State) :
    s.lineCycle.link =
      { s.link with
        lastError := s.lineCycle.link.lastError, receiver := s.lineCycle.link.receiver
        divider := s.lineCycle.link.divider, rxdHigh := s.lineCycle.link.rxdHigh
        idleSamples := s.lineCycle.link.idleSamples, sinceChar := s.lineCycle.link.sinceChar
        transmitter := s.lineCycle.link.transmitter } := by
  unfold State.lineCycle State.restPeriod
  repeat' split
  all_goals first
    | rfl
    | (dsimp only
       rw [LinkPort.endGap_frame]
       rfl)

/-- A cycle of REFCLK changes the last samples of the inputs, the time base, the link port, the link response slot and
the marker request alone. -/
theorem State.refCycle_frame (s : State) :
    s.refCycle =
      { s with
        time := s.refCycle.time, link := s.refCycle.link, triggers := s.refCycle.triggers
        ctl := { s.ctl with responses := s.refCycle.ctl.responses }
        notices := { s.notices with marker := s.refCycle.notices.marker } } := by
  unfold State.refCycle
  split
  · rw [State.settleLink_frame, State.cycleByCycle_frame, State.lineCycle_frame]
    rfl
  · rfl

/-- A cycle of REFCLK leaves everything of a trigger but its last sample, which a running part takes at its level. -/
theorem State.refCycle_triggers (s : State) (k : Fin 8) :
    s.refCycle.triggers.get k =
      if s.running then { s.triggers.get k with sample := (s.triggers.get k).level } else s.triggers.get k := by
  unfold State.refCycle
  split
  · rw [State.settleLink_frame, State.cycleByCycle_frame, State.lineCycle_frame]
    exact get_map _ _ _
  · rfl

/-! ### The two-sample filter (R73) -/

/-- Two successive samples show the level opposite to the sampled one, said of the list of samples. -/
theorem passes_iff (level last : Bool) (samples : List Bool) :
    passes level last samples = true ↔
      ∃ before rest, last :: samples = before ++ (!level) :: (!level) :: rest := by
  induction samples generalizing last with
  | nil =>
    simp only [passes, Bool.false_eq_true, false_iff, not_exists]
    intro before rest h
    have := congrArg List.length h
    simp at this
    omega
  | cons b rest ih =>
    simp only [passes, Bool.or_eq_true, ih, Bool.and_eq_true, bne_iff_ne, ne_eq]
    constructor
    · rintro (⟨h, h'⟩ | ⟨before, after, h⟩)
      · exact ⟨[], rest, by cases last <;> cases b <;> cases level <;> simp_all⟩
      · exact ⟨last :: before, after, by rw [h]; rfl⟩
    · rintro ⟨before, after, h⟩
      cases before with
      | nil =>
        simp only [List.nil_append, List.cons.injEq] at h
        obtain ⟨rfl, rfl, -⟩ := h
        left
        cases level <;> simp
      | cons x before =>
        simp only [List.cons_append, List.cons.injEq] at h
        exact .inr ⟨before, after, h.2⟩

/-- Everything that samples do at the filter. -/
theorem filtered_outcome (level last : Bool) (samples : List Bool) :
    (passes level last samples = false ∧ filtered level last samples = .kept (samples.getLastD last)) ∨
      (passes level last samples = true ∧ passes level last samples.dropLast = true ∧
        filtered level last samples = .beyond) ∨
      (passes level last samples = true ∧ passes level last samples.dropLast = false ∧
        filtered level last samples = .changed) := by
  unfold filtered
  cases passes level last samples <;> cases passes level last samples.dropLast <;> simp

/-- An input has passed a first level once two successive samples agree, and not before. -/
theorem passedLevel_isSome (samples : List Bool) :
    (passedLevel samples).isSome = true ↔ ∃ before b rest, samples = before ++ b :: b :: rest := by
  induction samples with
  | nil => simp [passedLevel]
  | cons a tail ih =>
    cases tail with
    | nil =>
      simp only [passedLevel, Option.isSome_none, Bool.false_eq_true, false_iff, not_exists]
      intro before b rest h
      have := congrArg List.length h
      simp at this
      omega
    | cons b rest =>
      rw [passedLevel]
      constructor
      · intro h
        cases hp : passedLevel (b :: rest) with
        | some level =>
          obtain ⟨before, x, after, h'⟩ := ih.mp (by rw [hp]; rfl)
          exact ⟨a :: before, x, after, by rw [h']; rfl⟩
        | none =>
          rw [hp] at h
          by_cases hab : a = b
          · exact ⟨[], b, rest, by rw [hab]; rfl⟩
          · simp [hab] at h
      · rintro ⟨before, x, after, h⟩
        cases before with
        | nil =>
          simp only [List.nil_append, List.cons.injEq] at h
          obtain ⟨rfl, rfl, -⟩ := h
          cases passedLevel (b :: rest) <;> simp
        | cons y before =>
          simp only [List.cons_append, List.cons.injEq] at h
          have := ih.mpr ⟨before, x, after, h.2⟩
          cases hp : passedLevel (b :: rest) with
          | some level => rfl
          | none => rw [hp] at this; simp at this

theorem passedLevel_append (before : List Bool) {tail : List Bool} {level : Bool} (h : passedLevel tail = some level) :
    passedLevel (before ++ tail) = some level := by
  induction before with
  | nil => exact h
  | cons a before ih =>
    rw [List.cons_append]
    cases hl : before ++ tail with
    | nil => rw [hl] at ih; simp [passedLevel] at ih
    | cons b rest => rw [passedLevel, ← hl, ih]

/-- The sampled level taken is that of the last two successive samples that agree. -/
theorem passedLevel_last (before : List Bool) (b : Bool) (after : List Bool) (h : passedLevel (b :: after) = none) :
    passedLevel (before ++ b :: b :: after) = some b :=
  passedLevel_append before (by rw [passedLevel, h]; simp)

/-- The level passed, said of the list of samples: a last pair that agrees, with none after it. -/
theorem passedLevel_eq_some (samples : List Bool) (level : Bool) :
    passedLevel samples = some level ↔
      ∃ before after, samples = before ++ level :: level :: after ∧ passedLevel (level :: after) = none := by
  constructor
  · induction samples with
    | nil => simp [passedLevel]
    | cons a tail ih =>
      cases tail with
      | nil => simp [passedLevel]
      | cons b rest =>
        intro h
        rw [passedLevel] at h
        cases hp : passedLevel (b :: rest) with
        | some x =>
          rw [hp] at h
          obtain ⟨before, after, h', h''⟩ := ih (hp.trans h)
          exact ⟨a :: before, after, by rw [h']; rfl, h''⟩
        | none =>
          simp only [hp, Option.ite_none_right_eq_some, Option.some.injEq] at h
          obtain ⟨rfl, rfl⟩ := h
          exact ⟨[], rest, rfl, hp⟩
  · rintro ⟨before, after, rfl, h⟩
    exact passedLevel_last before level after h

/-! ### The rise of SEL (R146, R148) -/

theorem State.riseAs_open {s : State} {t : Transaction} {kind : Option SpiKind} {sdi : List Bool}
    (judge : Transaction → State) (h : s.spi.transaction = some t) (hk : kindAfter sdi = kind) :
    s.riseAs kind sdi judge = judge t := by
  simp [State.riseAs, h, hk]

theorem State.riseAs_other {s : State} {t : Transaction} {kind : Option SpiKind} {sdi : List Bool}
    (judge : Transaction → State) (h : s.spi.transaction = some t) (hk : kindAfter sdi ≠ kind) :
    s.riseAs kind sdi judge = s := by
  simp [State.riseAs, h, hk]

theorem State.riseAs_unopened {s : State} (kind : Option SpiKind) (sdi : List Bool) (judge : Transaction → State)
    (h : s.spi.transaction = none) : s.riseAs kind sdi judge = s.riseUnopened sdi := by
  simp [State.riseAs, h]

@[simp] theorem SpiPort.close_lastResult (p : SpiPort) (sdi : List Bool) : (p.close sdi).lastResult = p.lastResult := rfl

@[simp] theorem SpiPort.close_transaction (p : SpiPort) (sdi : List Bool) : (p.close sdi).transaction = none := rfl

@[simp] theorem SpiPort.close_cut (p : SpiPort) (sdi : List Bool) : (p.close sdi).cut = none := rfl

@[simp] theorem SpiPort.close_sdo (p : SpiPort) (sdi : List Bool) :
    (p.close sdi).sdo = padded (p.outBits sdi) sdi.length := rfl

end Sys2Proof.Machine
end

