-- ==== Sys2Proof/Laws/Fire.lean ====
section
/-!
SUPPORT. The stages of a firing, each said once: what stage 3 leaves of the record, what stage 4 does, and which parts
of the state a firing touches.
-/
namespace Sys2Proof.Machine

/-- The entry at the head fires with its record and due. -/
theorem exec_fire {s : State} {e : EntryId} {a : Entry} {due : Word} (h : Fires s e a due) :
    exec .fire s = .next (s.fireEntry e a due).settleLink := by
  obtain ⟨h1, h2, h3, h4, h5, h6⟩ := h
  have hd : s.dueHead = some (e, a, due) := by
    unfold State.dueHead
    cases hl : s.dueList with
    | nil => simp [hl] at h3
    | cons x xs =>
      simp only [hl, List.head?_cons, Option.some.injEq] at h3
      subst h3
      simp [State.running, h1, h2, h4, h5, h6]
  simp [exec, execFire, hd]

/-- Stage 3 changes the state and left of the record and consumes the staged record, and nothing else (R31). -/
theorem Entry.stage3_record (a : Entry) (limit : Bool) (due now : Word) :
    ∃ st left, (a.stage3 limit due now).record =
      { a with
        state := st, left := left, period := a.staged.period.getD a.period
        action := a.staged.action.getD a.action, staged := Staged.absent } := by
  unfold Entry.stage3
  split
  · exact ⟨_, _, rfl⟩
  · split
    · simp only [Entry.complete]
      split <;> exact ⟨_, _, rfl⟩
    · unfold Entry.periodic
      split
      · unfold Entry.rearm
        split
        · exact ⟨_, _, rfl⟩
        · split <;> exact ⟨_, _, rfl⟩
      · split
        · simp only [Entry.complete]
          split <;> exact ⟨_, _, rfl⟩
        · unfold Entry.rearm
          split
          · exact ⟨_, _, rfl⟩
          · split <;> exact ⟨_, _, rfl⟩

/-- Stage 4 changes nothing, or moves the chain target, IDLE or PARKED, to ARMED (R36, R37). -/
theorem State.stage4_cases (s : State) (chain : Option EntryId) (fired : Word) :
    (∃ flags, s.stage4 chain fired = (flags, s)) ∨
      ∃ (t : EntryId) (b : Entry) (due : Word) (flags : EntryFlags), chain = some t ∧ s.entry t = some b ∧
        (b.state = .idle ∨ b.state = .parked) ∧ b.chainDue (fired + b.delay) s.time.count = (some due, flags) ∧
        s.stage4 chain fired = (flags, s.move t (b.chainArmed due)) := by
  unfold State.stage4
  cases chain with
  | none => exact .inl ⟨_, rfl⟩
  | some t =>
    dsimp only
    cases hb : s.entry t with
    | none => exact .inl ⟨_, rfl⟩
    | some b =>
      dsimp only
      have try_cases : (b.state = .idle ∨ b.state = .parked) →
          (∃ flags, s.chainTry t b fired = (flags, s)) ∨
            ∃ due flags, b.chainDue (fired + b.delay) s.time.count = (some due, flags) ∧
              s.chainTry t b fired = (flags, s.move t (b.chainArmed due)) := by
        intro _
        unfold State.chainTry
        split
        · rename_i due flags hd
          exact .inr ⟨due, flags, hd, rfl⟩
        · exact .inl ⟨_, rfl⟩
      cases hs : b.state with
      | idle =>
        rcases try_cases (.inl hs) with h | ⟨due, flags, hd, h⟩
        · exact .inl h
        · exact .inr ⟨t, b, due, flags, rfl, hb, .inl hs, hd, h⟩
      | parked =>
        rcases try_cases (.inr hs) with h | ⟨due, flags, hd, h⟩
        · exact .inl h
        · exact .inr ⟨t, b, due, flags, rfl, hb, .inr hs, hd, h⟩
      | armed due => exact .inl ⟨_, rfl⟩
      | held remaining => exact .inl ⟨_, rfl⟩

/-- Stage 4 touches the entries, the due list with its record of past dues, and the triggers alone. -/
theorem State.stage4_frame (s : State) (chain : Option EntryId) (fired : Word) :
    (s.stage4 chain fired).2 =
      { s with entries := (s.stage4 chain fired).2.entries, dueList := (s.stage4 chain fired).2.dueList,
               armedPast := (s.stage4 chain fired).2.armedPast, triggers := (s.stage4 chain fired).2.triggers } := by
  rcases s.stage4_cases chain fired with ⟨flags, h⟩ | ⟨t, b, due, flags, -, -, -, -, h⟩
  · rw [h]
  · rw [h]
    exact State.move_frame s t (b.chainArmed due)

/-- The table and the lines after stage 3: the part with the entry off every list, the lines as its action leaves them,
and its record placed (R31). -/
theorem State.stage3_frame (s : State) (e : EntryId) (lines : LineUnit) (a : Entry) :
    State.place { s.unlist e with lines := lines } e a =
      { s with
        entries := (State.place { s.unlist e with lines := lines } e a).entries
        dueList := (State.place { s.unlist e with lines := lines } e a).dueList
        armedPast := (State.place { s.unlist e with lines := lines } e a).armedPast
        lines := lines
        triggers := (State.place { s.unlist e with lines := lines } e a).triggers } := by
  have h := State.place_frame { s.unlist e with lines := lines } e a
  exact h

/-- A firing leaves the time base, the controller, the ports, the quotas, the phase and the queue alone, and the lines
after it are those its action leaves. -/
theorem State.fireEntry_frame (s : State) (e : EntryId) (a : Entry) (due : Word) :
    s.fireEntry e a due =
      { s with
        entries := (s.fireEntry e a due).entries, dueList := (s.fireEntry e a due).dueList
        armedPast := (s.fireEntry e a due).armedPast
        lines := (s.lines.deliver a.action).2, triggers := (s.fireEntry e a due).triggers
        notices := (s.fireEntry e a due).notices } := by
  have compose : ∀ (s3 s4 : State) {xs ys ps zs lines},
      s3 = { s with entries := xs, dueList := ys, armedPast := ps, lines := lines, triggers := zs } →
      s4 = { s3 with
             entries := s4.entries, dueList := s4.dueList, armedPast := s4.armedPast, triggers := s4.triggers } →
      s4 = { s with
             entries := s4.entries, dueList := s4.dueList, armedPast := s4.armedPast, lines := lines
             triggers := s4.triggers, notices := s4.notices } := by
    intro s3 s4 xs ys ps zs lines h3 h4
    subst h3
    exact h4.trans (by rw [h4])
  have posted : ∀ (s4 : State) {xs ys ps zs lines ns},
      s4 = { s with entries := xs, dueList := ys, armedPast := ps, lines := lines, triggers := zs, notices := ns } →
      ∀ n,
      { s4 with notices := n } =
        { s with entries := xs, dueList := ys, armedPast := ps, lines := lines, triggers := zs, notices := n } := by
    intro s4 xs ys ps zs lines ns h n
    rw [h]
  have h := compose _ _ (State.stage3_frame s e (s.lines.deliver a.action).2
    (a.stage3 (s.lines.deliver a.action).1 due s.time.count).record)
    (State.stage4_frame _ (a.stage3 (s.lines.deliver a.action).1 due s.time.count).record.chain due)
  unfold State.fireEntry
  dsimp only
  split
  · exact posted _ h _
  · exact h

end Sys2Proof.Machine
end

