-- ==== Sys2Proof/Tests/Slice0.lean ====
section
/-!
SUPPORT. The model's own tests: the WellFormed checks, the worked frames of the data book, one or two steps for each
command and event, and, for each statement with hypotheses, states and operands that meet them.
-/
namespace Sys2Proof.Tests
open Sys2Proof.Machine

set_option Elab.async false

/-! ### Small states -/

/-- A command from a port's own source. -/
def cmd (src : Source) (body : List Byte) : Cmd := { src := src, seq := 7, body := body }

/-- The part with a command in its slot. -/
def put (code : Byte) (c : Cmd) (s : State) : State :=
  { s with ctl := { s.ctl with commands := s.ctl.commands.set c.src.port (some (cmdFrame code c)) } }

/-- The state an outcome leads to; the reset state if it leads to none. -/
def after : Host.Outcome State Fault Refusal → State
  | .next t => t
  | .fault _ => State.reset
  | .refused _ => State.reset

/-- The part after the take of a command. -/
def run (i : Cmd → Instr) (code : Byte) (src : Source) (body : List Byte) (s : State) : State :=
  after (exec (i (cmd src body)) (put code (cmd src body) s))

/-- Result and body of the response that waits in a port's slot. -/
def answer (p : Port) (s : State) : Option (Result × List Byte) :=
  (s.ctl.responses.get p).map fun r => (r.result, r.body)

/-- The reset state. -/
def base : State := State.reset

/-- An SPI entry of the tests. -/
def idleEntry : Entry := { Entry.initial .spi with notify := true }

/-- An armed SPI entry, due at a time. -/
def armedEntry (due : Word) : Entry := { idleEntry with state := .armed due }

/-- The part with entry 3 IDLE. -/
def withIdle : State := base.setEntry 3 (some idleEntry)

/-- The part with entry 3 given a record and moved to its list. -/
def withEntry (a : Entry) : State := withIdle.move 3 a

/-- The part with entry 3 due at time 0. -/
def dueNow : State := withEntry (armedEntry 0)

/-- The part with every line and trigger claimed by SPI. -/
def claimed (s : State) : State := { s with lines := s.lines.claim .spi 0xFFFF 0xFF }

/-- The part with group 1 in SEQUENCE mode. -/
def sequence (s : State) : State :=
  let g := s.lines.groups.get 1
  { s with lines := s.lines.putGroup 1 { g with mode := .sequence, table := #v[1, 2, 4, 8, 3, 6, 12, 9] } }

/-- The part with entry 3 parked on T2. -/
def parked : State := (claimed withIdle).move 3 { idleEntry with state := .parked, trigger := some 2, delay := 5 }

/-- The part with an open transaction. -/
def opened (s : State) : State := after (exec .selFall s)

/-- The bits of bytes on SDI or SDO. -/
def tx (bytes : List Byte) : List Bool := bytes.flatMap spiBits

/-- Samples of RXD at 1. -/
def hi (n : Nat) : List Bool := List.replicate n true

/-- The trigger inputs and the FREEZE pin at one level through two samples. -/
def steady (levels : BitVec 8) (freezePin : Bool) : List InputSample :=
  [{ triggers := levels, freezePin := freezePin }, { triggers := levels, freezePin := freezePin }]

/-- Samples 1 to 169 of a character. -/
def line (data : Byte) (mark stop : Bool) : List Bool :=
  ((((LinkChar.bits { data := data, mark := mark }).take 10 ++ [stop]).flatMap (List.replicate 16)).take 170).drop 1

/-- The part with the receiver inside a character, after six samples at 1. -/
def inside (s : State) : State := after (exec (.startBit (hi 6)) s)

/-- The part with a frame in assembly whose buffer is given. -/
def assembling (buffer : List Byte) (s : State) : State :=
  inside { s with link := { s.link with receiver := .assembling false buffer } }

/-- A response that waits. -/
def waiting : Response :=
  { code := 0x82, seq := 1, result := .ok, overwrote := false, notConsumed := false, body := [9] }

/-- The part with a response in both response slots. -/
def answered : State := { base with ctl := { base.ctl with responses := ⟨some waiting, some waiting⟩ } }

/-- The part with an item for entry 3 in the SPI queue. -/
def noticed : State := withIdle.post .spi 3 5 { late := true } 100

/-- The part with a synthesizer state. -/
def synth (x : SynthState) : State := { base with time := { base.time with synth := x } }

/-- The part with SYNTH selected and locked. -/
def onSynth : State := { synth .locked with time := { (synth .locked).time with source := .synth } }

/-! ### WellFormed: an ill-formed term for each check -/

theorem test_wf_body : Instr.wf (.echo (cmd .spi (List.replicate 45 0))) = false := by decide
theorem test_wf_body_longest : Instr.wf (.echo (cmd .spi (List.replicate 44 0))) = true := by decide
theorem test_wf_unknown : Instr.wf (.unknown 0x60 (cmd .spi [])) = false := by decide
theorem test_wf_reference_low : Instr.wf (.lockGained 999999) = false := by decide
theorem test_wf_reference_high : Instr.wf (.lockGained 25000001) = false := by decide
theorem test_wf_commandTransaction : Instr.wf (.commandTransaction (hi 7)) = false := by decide
theorem test_wf_fetchTransaction : Instr.wf (.fetchTransaction (hi 7)) = false := by decide
theorem test_wf_pollTransaction : Instr.wf (.pollTransaction (hi 7)) = false := by decide
theorem test_wf_unknownKindTransaction : Instr.wf (.unknownKindTransaction (hi 7)) = false := by decide
theorem test_wf_transactionWithoutKind : Instr.wf (.transactionWithoutKind (hi 8)) = false := by decide
theorem test_wf_characterComplete : Instr.wf (.characterComplete (hi 168)) = false := by decide +kernel
theorem test_wf_falseStart : Instr.wf (.falseStart (hi 10)) = false := by decide
theorem test_wf_characterComplete_whole : Instr.wf (.characterComplete (line 0x0F true true)) = true := by decide +kernel

/-! ### The worked frames and tables -/

theorem test_crc_status_command : crc8 [0x03, 0x02, 0x01] = 0xBB := by decide +kernel
theorem test_crc_remainder : crc8 [0x03, 0x02, 0x01, 0xBB] = 0 := by decide +kernel
theorem test_status_command : commandBytes 0x02 0x01 [] = [0x03, 0x02, 0x01, 0xBB] := by decide +kernel
theorem test_status_byte_reset : statusByte base = 0x10 := by decide
theorem test_grid : firstGridPoint 2000 2250 100 = 2300 := by decide
theorem test_strap_zero : Config.strapAddress 0 = 15 := by decide
theorem test_word_spells_none : decodeTableWord 8 0x02 = none := rfl
theorem test_reset_by_events :
    after (exec (.firstLevelPassed (steady 0 false)) (after (exec (.powerOnReset 0 0 false) base))) = base := by decide +kernel

/-! ### Takes of commands -/

theorem test_echo : answer .spi (run .echo 0x01 .spi [1, 2] base) = some (.ok, [1, 2]) := by decide +kernel
theorem test_echo_length : answer .spi (run .echo 0x01 .spi (List.replicate 43 0) base) = some (.length, []) := by
  decide +kernel
theorem test_status :
    answer .spi (run .status 0x02 .spi [] base) = some (.ok, [1, 0, 0, 1, 0, 0, 0, 0, 0, 1, 64, 0, 15]) := by
  decide +kernel
theorem test_status_clears : (run .status 0x02 .spi [] base).ctl.resetCause = .none := by decide +kernel
theorem test_quota : (run .quota 0x03 .spi [1, 0, 1] base).quotas = ⟨256, 256⟩ := by decide +kernel
theorem test_quota_range : answer .spi (run .quota 0x03 .spi [1, 1, 1] base) = some (.range, []) := by decide +kernel
theorem test_resetPart :
    (run (.resetPart · []) 0x04 .spi [] answered).ctl.responses =
      ⟨some { code := 0x84, seq := 7, result := .ok, overwrote := true, notConsumed := false, body := [] }, none⟩ := by
  decide +kernel
/-- A reset five bits into the status byte: the byte as taken goes on, and zeros follow (R158). -/
theorem test_resetPart_cuts :
    (after (exec (.pollTransaction (tx [0x3C, 0]))
      (run (.resetPart · (hi 5)) 0x04 .spi [] (opened answered)))).spi.sdo =
      tx [statusByte (put 0x04 (cmd .spi []) answered) - 0x80, 0] := by decide +kernel
theorem test_evict : answer .spi (run .evict 0x05 .spi [1] (base.setEntry 9 (some (Entry.initial .link)))) =
    some (.ok, [1, 0]) := by decide +kernel
theorem test_leave :
    (run .leave 0x06 .link [] (base.setEntry 9 (some (Entry.initial .link)))).entry 9 = none := by decide +kernel
theorem test_leave_spi : answer .spi (run .leave 0x06 .spi [] base) = some (.notPermitted, []) := by decide +kernel
theorem test_alloc_lowest : answer .link (run .alloc 0x10 .link [] base) = some (.ok, [0]) := by decide +kernel
theorem test_alloc_named : (run .alloc 0x10 .spi [200] base).entry 200 = some (Entry.initial .spi) := by
  decide +kernel
theorem test_retire : answer .spi (run .retire 0x11 .spi [3] noticed) = some (.ok, [1, 0, 1]) := by decide +kernel
theorem test_config :
    (run .config 0x12 .spi [3, 1, 2, 100, 0, 0, 0, 4, 0, 5, 0, 0, 0, 1, 6, 0, 0x2D, 0, 2] (claimed withIdle)).entry 3 =
      some { idleEntry with
        tag := 0x201, period := 100, reps := 4, delay := 5, action := .line .set 6, late := .skip, notify := true
        repark := true, trigger := some 2 } := by decide +kernel
theorem test_config_state :
    answer .spi (run .config 0x12 .spi [3, 0, 0, 0, 0, 0, 0, 0, 0, 1, 0, 0, 0, 0, 0, 0, 0, 0, 0] dueNow) =
      some (.state, []) := by decide +kernel
theorem test_stage :
    (run .stage 0x13 .spi [3, 3, 7, 0, 0, 0, 3, 1, 0] (claimed withIdle)).entry 3 =
      some { idleEntry with staged := { period := some 7, action := some (.line .toggle 1) } } := by decide +kernel
theorem test_armAt : (run .armAt 0x14 .spi [3, 50, 0, 0, 0] withIdle).entry 3 =
    some { idleEntry with state := .armed 50, left := 1 } := by decide +kernel
theorem test_armAt_range : answer .spi (run .armAt 0x14 .spi [3, 0, 0, 0, 0x80] withIdle) = some (.range, []) := by
  decide +kernel
theorem test_armIn : answer .spi (run .armIn 0x15 .spi [3, 9, 0, 0, 0] withIdle) = some (.ok, [9, 0, 0, 0, 0]) := by
  decide +kernel
theorem test_armOn :
    (run .armOn 0x16 .spi [3] (claimed (withEntry { idleEntry with trigger := some 2 }))).triggers.get 2 =
      { Trigger.initial false false with park := [3] } := by decide +kernel
theorem test_disarm : (run .disarm 0x17 .spi [3] dueNow).dueList = [] := by decide +kernel
theorem test_disarm_idle : answer .spi (run .disarm 0x17 .spi [3] withIdle) = some (.notArmed, []) := by decide +kernel
theorem test_suspend : (run .suspend 0x18 .spi [3] (withEntry (armedEntry 30))).entry 3 =
    some { idleEntry with state := .held 30 } := by decide +kernel
theorem test_resume : (run .resume 0x19 .spi [3] (withEntry { idleEntry with state := .held 30 })).dueList = [3] := by
  decide +kernel
theorem test_retime : (run .retime 0x1A .spi [3, 60, 0, 0, 0] dueNow).dueOf 3 = some 60 := by decide +kernel
theorem test_nudge : (run .nudge 0x1B .spi [3, 0xFF, 0xFF, 0xFF, 0xFF] (withEntry (armedEntry 30))).dueOf 3 =
    some 29 := by decide +kernel
theorem test_look : (answer .spi (run .look 0x1C .spi [3] (withEntry (armedEntry 30)))).map (·.2.take 5) =
    some [3, 2, 0, 4, 0] := by decide +kernel
theorem test_give : ((run .give 0x1D .spi [3] noticed).entry 3).map (·.owner) = some .link := by decide +kernel
theorem test_give_item : (run .give 0x1D .spi [3] noticed).notices.queues.link.length = 1 := by decide +kernel
theorem test_take : answer .spi (run .takeNotices 0x20 .spi [3] noticed) =
    some (.ok, [1, 3, 0, 5, 0, 1, 0, 1, 100, 0, 0, 0]) := by decide +kernel
theorem test_noticeConfig : (run .noticeConfig 0x21 .link [1, 0] base).notices.signalling = ⟨false, true⟩ := by
  decide +kernel
theorem test_claim : (run .claim 0x30 .spi [0, 0x80, 1] base).lines.lineClaims.get 15 = some .spi := by decide +kernel
theorem test_claim_claimed : answer .link (run .claim 0x30 .link [1, 0, 0] (claimed base)) = some (.claimed, []) := by
  decide +kernel
theorem test_release : (run .release 0x31 .spi [1, 0, 0] (claimed base)).lines.lineClaims.get 0 = none := by
  decide +kernel
theorem test_setLines : (run .setLines 0x32 .spi [3, 0, 1, 0, 2, 0] (claimed base)).lines.drives = 2 := by
  decide +kernel
theorem test_groupMode : (run .groupMode 0x33 .spi [1, 0] (sequence (claimed base))).lines.levels = 0x10 := by
  decide +kernel
theorem test_loadPhases :
    (run .loadPhases 0x34 .spi [1, 7, 0, 0, 0, 0, 0, 0, 0] (sequence (claimed base))).lines.levels = 0x70 := by
  decide +kernel
theorem test_setGroup :
    (run .setGroup 0x35 .spi [1, 1, 3, 0, 0, 0, 0, 0] (sequence (claimed base))).lines.levels = 0x80 := by
  decide +kernel
theorem test_setLimits :
    answer .spi (run .setLimits 0x36 .spi [1, 1, 1, 0, 0, 0, 9, 0, 0, 0] (claimed base)) = some (.range, []) := by
  decide +kernel
theorem test_readLines : (answer .link (run .readLines 0x37 .link [1] (sequence base))).map (·.2.take 6) =
    some [1, 1, 0x21, 0x84, 0x63, 0x9C] := by decide +kernel
theorem test_triggerConfig : ((run .triggerConfig 0x40 .spi [2, 3, 1] (claimed base)).triggers.get 2).mode = .all := by
  decide +kernel
theorem test_readTrigger : answer .spi (run .readTrigger 0x41 .spi [2] parked) =
    some (.ok, [2, 0, 0, 0, 0, 0, 0, 1, 0]) := by decide +kernel
theorem test_readTime : answer .spi (run .readTime 0x50 .spi [] base) =
    some (.ok, [0, 0, 0, 0, 0, 4, 8, 0, 0, 0, 0]) := by decide +kernel
theorem test_setTime : (run .setTime 0x51 .spi [0, 1, 0, 0] dueNow).dueOf 3 = some 256 := by decide +kernel
theorem test_synthSet : (run .synthSet 0x52 .spi [1, 5, 2, 0] base).time.n = 5 := by decide +kernel
theorem test_synthOn : (run .synthOn 0x53 .spi [] base).time.synth = .acquiring := by decide +kernel
theorem test_synthOff : answer .spi (run .synthOff 0x54 .spi [] onSynth) = some (.settingLocked, []) := by
  decide +kernel
theorem test_select : (run .selectSource 0x55 .spi [1] (synth .locked)).time.changeover =
    some ⟨.synth, .requested⟩ := by decide +kernel
theorem test_prescale : (run .prescale 0x56 .spi [6] base).time.pendingExponent = some 6 := by decide +kernel
theorem test_freeze : (run .freeze 0x57 .spi [1] base).time.frozen = true := by decide +kernel
theorem test_linkConfig : (run .linkConfig 0x60 .spi [11, 0, 50, 2] base).link.settings =
    { d := 11, g := 50, q := 2 } := by decide +kernel
theorem test_linkStatus : answer .spi (run .linkStatus 0x61 .spi [] base) =
    some (.ok, [15, 130, 0, 40, 4, 0, 0, 0, 0, 0, 0]) := by decide +kernel
theorem test_unknown : answer .spi (run (.unknown 0x81) 0x81 .spi [] base) = some (.unknown, []) := by decide +kernel
theorem test_broadcast : answer .link (run .alloc 0x10 .broadcast [] base) = none := by decide +kernel

/-! ### Events -/

theorem test_fire : (after (exec .fire dueNow)).notices.queues.spi =
    [.entry 3 { tag := 0, count := 1, flags := { ended := true }, lastDue := 0 }] := by decide +kernel
theorem test_fire_ahead : after (exec .fire (withEntry (armedEntry 1))) = withEntry (armedEntry 1) := by decide +kernel
theorem test_tick : (after (exec (.tick 1) base)).time.count = 1 := by decide +kernel
/-- The part with prescaler exponent 3 and a prescaler count. -/
def prescaled (n : Nat) : State := { base with time := { base.time with exponent := 3, prescaler := n } }
theorem test_tick_before : (after (exec (.tick 5) (prescaled 2))).time =
    { (prescaled 7).time with count := 0 } := by decide +kernel
theorem test_tick_completes : (after (exec (.tick 6) (prescaled 2))).time =
    { (prescaled 0).time with count := 1 } := by decide +kernel
theorem test_tick_beyond : (after (exec (.tick 7) (prescaled 2))).time = (prescaled 2).time := by decide +kernel
theorem test_triggerEdge :
    (after (exec (.triggerEdge 2 [true, false, true, true]) (parked.setTrigger 2 { parked.triggers.get 2 with edge := .rising }))).dueOf 3 =
      some 5 := by decide +kernel
theorem test_lockGained : (after (exec (.lockGained 16000000) (synth .acquiring))).time.synth = .locked := by
  decide +kernel
theorem test_lockLost : (after (exec .lockLost onSynth)).time.changeover = some ⟨.ref, .fallback⟩ := by decide +kernel
theorem test_changeoverComplete :
    (after (exec .changeoverComplete (after (exec .lockLost onSynth)))).time.source = .ref := by decide +kernel
theorem test_triggerEdge_short : after (exec (.triggerEdge 2 [true, false]) parked) = parked := by decide +kernel
theorem test_triggerEdge_last_sample :
    ((after (exec (.triggerEdge 2 [true]) (after (exec (.triggerEdge 2 [true]) parked)))).triggers.get 2).level = true := by
  decide +kernel
theorem test_triggerEdge_beyond : after (exec (.triggerEdge 2 [true, true, true]) parked) = parked := by decide +kernel
theorem test_freezePinChange : (after (exec (.freezePinChange (hi 2)) base)).time.freezePin = true := by decide +kernel
theorem test_freezePinChange_short : (after (exec (.freezePinChange (hi 1)) base)).time =
    { base.time with freezeSample := true } := by decide +kernel
theorem test_powerOnReset : (after (exec (.powerOnReset 7 3 true) base)).phase = .held := by decide +kernel
theorem test_nresetAssert : (after (exec .nresetAssert base)).ctl.resetCause = .pin := by decide +kernel
theorem test_nresetRelease :
    (after (exec (.nresetRelease 7 3) (after (exec .nresetAssert base)))).link.settings.d = 11 := by decide +kernel
theorem test_firstLevelPassed :
    (after (exec (.firstLevelPassed (steady 4 true)) (after (exec (.powerOnReset 7 3 false) base)))).time.frozen = true := by
  decide +kernel
/-- T2 bounces until the third sample, so that the first levels are known at the fourth (R89). -/
theorem test_firstLevelPassed_bounce :
    let samples : List InputSample := [⟨4, false⟩, ⟨0, false⟩, ⟨4, false⟩]
    let settling := after (exec (.powerOnReset 7 3 false) base)
    after (exec (.firstLevelPassed samples) settling) = settling ∧
      ((after (exec (.firstLevelPassed (samples ++ [⟨4, false⟩])) settling)).triggers.get 2).level = true := by
  decide +kernel
theorem test_selFall : (opened base).spi.transaction =
    some { kind := none, status := 0x10, copy := none, placed := false } := by decide +kernel
theorem test_commandTransaction :
    (after (exec (.commandTransaction (tx (0xA5 :: commandBytes 0x02 0x01 []))) (opened base))).ctl.commands.spi =
      some { code := 0x02, seq := 0x01, body := [], broadcast := false } := by decide +kernel
theorem test_commandTransaction_check :
    (after (exec (.commandTransaction (tx [0xA5, 3, 2, 1, 0])) (opened base))).spi.lastResult = .check := by
  decide +kernel
theorem test_commandTransaction_partly :
    (after (exec (.commandTransaction (tx (0xA5 :: commandBytes 2 1 []) ++ [true])) (opened base))).spi.lastResult =
      .length := by decide +kernel
theorem test_commandTransaction_other_kind :
    after (exec (.commandTransaction (tx [0x3C, 3, 2, 1, 0xBB])) (opened base)) = opened base := by decide +kernel
theorem test_fetchTransaction :
    (after (exec (.fetchTransaction (tx (0x5A :: List.replicate 7 0))) (opened answered))).spi.lastResult =
      .collected := by decide +kernel
theorem test_fetchTransaction_short :
    (after (exec (.fetchTransaction (tx (0x5A :: List.replicate 6 0) ++ hi 7)) (opened answered))).spi.lastResult =
      .kept := by decide +kernel
theorem test_fetchTransaction_out :
    (after (exec (.fetchTransaction (tx (0x5A :: List.replicate 8 0))) (opened answered))).spi.sdo =
      tx (statusByte answered :: responseBytes waiting ++ [0]) := by decide +kernel
theorem test_pollTransaction : (after (exec (.pollTransaction (tx [0x3C, 1])) (opened base))).spi.sdo = tx [0x10, 0] := by
  decide +kernel
theorem test_unknownKindTransaction :
    (after (exec (.unknownKindTransaction (tx [1])) (opened base))).spi.lastResult = .kind := by decide +kernel
/-- Four rising edges of SCK shift out four bits of the status byte (R149). -/
theorem test_transactionWithoutKind :
    (after (exec (.transactionWithoutKind (hi 4)) (opened base))).spi =
      { base.spi with sdo := [false, false, false, true] } := by decide +kernel
theorem test_sdo_pin : base.sdoPin [] false = none ∧ (opened base).sdoPin (hi 3) false = some true ∧
    (opened base).sdoPin (hi 4) false = some false ∧ (opened base).sdoPin (hi 4) true = some true ∧
    (opened answered).sdoPin (tx [0x5A]) false = some false ∧
    (opened answered).sdoPin (tx [0x5A, 0]) false = some true := by decide +kernel
theorem test_characterComplete :
    (after (exec (.characterComplete (line 0x0F true true)) (inside base))).link.receiver = .assembling false [] := by
  decide +kernel
theorem test_characterComplete_last :
    (after (exec (.characterComplete (line 0xBB false true)) (assembling [3, 2, 1] base))).ctl.commands.link =
      some { code := 2, seq := 1, body := [], broadcast := false } := by decide +kernel
/-- One sample of the three that differs does not change the bit (R161). -/
theorem test_vote : readBit ((line 0xFF false true).set 24 false) 1 = true ∧
    readBit (((line 0xFF false true).set 24 false).set 25 false) 1 = false := by decide
theorem test_gap :
    (after (exec (.gap (hi 647)) { base with link := { base.link with receiver := .assembling false [] } })).link.lastError =
      .gap := by decide +kernel
theorem test_gap_beyond :
    (after (exec (.gap (hi 648)) { base with link := { base.link with receiver := .assembling false [] } })).link =
      { base.link with receiver := .assembling false [] } := by decide +kernel
theorem test_gap_within :
    (after (exec (.gap (hi 646)) { base with link := { base.link with receiver := .assembling false [] } })).link =
      { base.link with receiver := .assembling false [] } := by decide +kernel
theorem test_transmissionBegin :
    (after (exec (.transmissionBegin (hi 64)) answered)).link.transmitter =
      .sending .response (answered.link.characters (responseBytes waiting)) 0 := by decide +kernel
theorem test_transmissionBegin_early : after (exec (.transmissionBegin (hi 63)) answered) = answered := by
  decide +kernel
theorem test_transmissionBegin_beyond : after (exec (.transmissionBegin (hi 65)) answered) = answered := by
  decide +kernel
/-- A line that has been quiet for Q bit-times (R170). -/
def quietLine (s : State) : State := { s with link := { s.link with rxdHigh := true, idleSamples := 64 } }
/-- On a quiet line a transmission begins within the event that places the response (R171). -/
theorem test_begin_at_placement :
    (run .echo 0x01 .link [9] (quietLine base)).link.transmitter =
      .sending .response (base.link.characters [6, 0x81, 7, 0, 0, 9, crc8 [6, 0x81, 7, 0, 0, 9]]) 0 := by decide +kernel
/-- On a quiet line a marker begins within the firing that requests it, and the request becomes none (R98, R171). -/
theorem test_begin_at_firing :
    let a : Entry := { armedEntry 0 with owner := .link }
    let t := after (exec .fire (quietLine { withEntry a with
      notices := { base.notices with signalling := ⟨false, true⟩ } }))
    t.link.transmitter = .sending .marker (base.link.characters [0x4E]) 0 ∧ t.notices.marker = false ∧
      t.notices.queues.link ≠ [] := by decide +kernel
/-- On an empty queue too: at the sample that brings the idle count to Q a transmission begins, at the end of its last
stop bit it ends, and a frame in assembly is abandoned when its gap passes (R167, R171, R172). -/
theorem test_line_on_empty_queue :
    let sampled := fun (k : LinkPort) => after (step { answered with link := { k with divider := 129 } })
    (sampled { base.link with idleSamples := 63 }).link.transmitter =
        .sending .response (base.link.characters (responseBytes waiting)) 0 ∧
      (sampled { base.link with idleSamples := 62 }).link.transmitter = .quiet ∧
      (sampled { base.link with
        transmitter := .sending .response (base.link.characters (responseBytes waiting)) 1407 }).ctl.responses.link =
          none ∧
      (sampled { base.link with receiver := .assembling false [], sinceChar := 646 }).link.lastError = .gap := by
  decide +kernel
/-- A transmission whose conditions hold is not passed over: no start bit begins after them (R171). -/
theorem test_startBit_after_due : after (exec (.startBit (hi 64)) answered) = answered := by decide +kernel
theorem test_transmissionEnd :
    (after (exec (.transmissionEnd 1408) (after (exec (.transmissionBegin (hi 64)) answered)))).ctl.responses.link =
      none := by decide +kernel
/-- TXD carries the start bit, then data bit 0 of the address character 8FH; LDE is asserted while SENDING (R172). -/
theorem test_txd :
    let sending := fun (n : Nat) =>
      { base.link with transmitter := .sending .response (answered.link.characters (responseBytes waiting)) n }
    base.link.txd = true ∧ base.link.driverEnabled = false ∧ (sending 0).txd = false ∧ (sending 15).txd = false ∧
      (sending 16).txd = true ∧ (sending 80).txd = false ∧ (sending 16).driverEnabled = true := by decide +kernel
theorem test_pendingSettings :
    (after (exec .pendingSettingsInForce
      { base with link := { base.link with pendingSettings := some { d := 1, g := 16, q := 64 } } })).link.settings =
      { d := 1, g := 16, q := 64 } := by decide +kernel
theorem test_startBit : (inside base).link.insideChar = true := by decide +kernel
/-- The receiver in assembly, inside a character that began just before its gap passed. -/
def lateInside : State :=
  after (exec (.startBit (hi 640)) { base with link := { base.link with receiver := .assembling false [] } })
theorem test_falseStart :
    (after (exec (.falseStart (hi 9)) lateInside)).link.lastError = .gap := by decide +kernel
theorem test_falseStart_in_time :
    (after (exec (.falseStart (hi 9)) (assembling [] base))).link.receiver = .assembling false [] := by decide +kernel
/-- One cycle of REFCLK: a tick, and one of the 130 cycles of a sample period. -/
theorem test_idle_step : after (step base) =
    { base with time := { base.time with count := 1 }, link := { base.link with divider := 1 } } := by decide +kernel
theorem test_idle_sample : (after (step { base with link := { base.link with divider := 129 } })).link =
    { base.link with idleSamples := 1, rxdHigh := true } := by decide +kernel
/-- With SYNTH selected a cycle of REFCLK is N cycles of the clock. -/
theorem test_idle_synth : (after (step onSynth)).time.count = 4 := by decide +kernel

/-! ### Witnesses: states and operands that meet the hypotheses of the statements, clause by clause -/

/-- A command put in its slot is the controller's next. -/
def ready (code : Byte) (src : Source) (body : List Byte) (s : State) : Bool :=
  (put code (cmd src body) s).takes code (cmd src body)

/-- Entry 9, owned by LINK. -/
def withLink : State := withIdle.setEntry 9 (some (Entry.initial .link))

/-- Entry 3 chained to entry 4, which is IDLE. -/
def chained (b : Entry) : State :=
  (base.setEntry 4 (some b)).move 3 { armedEntry 0 with chain := some 4 }

/-- Every step action is refused on group 1. -/
def limited (s : State) : State :=
  { s with lines := s.lines.setGroup 1 { s.lines.groups.get 1 with limits := some { min := 0, max := 0 } } }

/-- Both slots hold a command. -/
def contended (served : Port) : State :=
  put 0x01 (cmd .spi []) (put 0x01 (cmd .link []) { base with ctl := { base.ctl with lastServed := served } })

/-- The part while the response is being sent, with so many sample periods passed. -/
def sending (n : Nat) : State :=
  { answered with link := { answered.link with
      transmitter := .sending .response (answered.link.characters (responseBytes waiting)) n } }

/-- Entry 3 armed at the most negative difference. -/
def mostPastDue : State := withEntry (armedEntry 0x80000000)

/-- A number of ticks have passed since. -/
def later (n : Nat) (s : State) : State :=
  { s with time := { s.time with count := s.time.count + BitVec.ofNat 32 n } }

/-- The 2^16-th tick of the wait of a due entry does not come before its FIRE, be the entry due since it was armed or
armed at a past target; the ticks before it come, and so does that one after the FIRE. -/
theorem test_tick_prompt :
    (after (exec (.tick 1) (later 65534 dueNow))).time.count = 65535 ∧
      after (exec (.tick 1) (later 65535 dueNow)) = later 65535 dueNow ∧
      after (step (later 65535 dueNow)) = (later 65535 dueNow).refCycle ∧
      (later 65535 dueNow).refCycle.time.count = 65535 ∧
      (after (exec (.tick 1) (after (exec .fire (later 65535 dueNow))))).time.count = 65536 ∧
      (withEntry (armedEntry 0xFFFFFF00)).armedPast.get 3 = 256 ∧
      (after (exec (.tick 1) (later 65534 (withEntry (armedEntry 0xFFFFFF00))))).time.count = 65535 ∧
      (after (exec (.tick 1) (later 65535 (withEntry (armedEntry 0xFFFFFF00))))).time.count = 65535 := by
  decide +kernel

theorem witness_EmptyQueueRunsClock :
    base.pending = [] ∧ base.phase = .running ∧ (after (exec .nresetAssert base)).phase ≠ .running ∧
      base.time.prescaler + 1 = 2 ^ base.time.exponent.toNat ∧
      (prescaled 2).time.prescaler + 1 < 2 ^ (prescaled 2).time.exponent.toNat ∧
      mostPastDue.pending = [] ∧ mostPastDue.keyOf 3 = Config.mostPast ∧ (later 65535 dueNow).pending = [] ∧
      (later 65535 dueNow).dueList = [3] ∧ (later 65535 dueNow).waited 3 = 65535 ∧
      (after (exec (.freezePinChange (hi 2)) base)).time.frozen = true ∧ onSynth.time.source = .synth ∧
      base.link.divider + 1 < base.link.settings.d.toNat ∧ (inside base).link.insideChar = true ∧
      ({ base with link := { base.link with divider := 129 } } : State).link.settings.d.toNat ≤ 129 + 1 ∧
      (sending 1406).link.transmitter ≠ .quiet ∧
      1406 + 1 < 176 * (answered.link.characters (responseBytes waiting)).length ∧
      176 * (answered.link.characters (responseBytes waiting)).length ≤ 1407 + 1 := by decide +kernel
theorem witness_EmptyQueueRunsClock_gap :
    let sampled := fun (n : Nat) =>
      ({ base.link with receiver := .assembling false [], sinceChar := n, divider := 0 } : LinkPort).sample true
    16 * base.link.settings.g.toNat + 7 ≤ (sampled 646).sinceChar ∧
      (sampled 645).sinceChar < 16 * base.link.settings.g.toNat + 7 := by decide +kernel
theorem witness_TakeArbitration :
    commandOf (.echo (cmd .spi [])) = some (0x01, cmd .spi []) ∧ (after (exec .nresetAssert base)).phase ≠ .running ∧
      base.ctl.commands.get .spi ≠ some (cmdFrame 0x01 (cmd .spi [])) ∧
      (contended .spi).takes 0x01 (cmd .spi []) = false ∧ (contended .link).takes 0x01 (cmd .spi []) = true ∧
      ready 0x01 .spi [] base = true := by decide
theorem witness_TakeAnswers :
    commandOf (.setTime (cmd .spi [0, 0, 0, 0])) = some (0x51, cmd .spi [0, 0, 0, 0]) ∧
      ready 0x51 .spi [0, 0, 0, 0] base = true ∧ ready 0x51 .link [0, 0, 0, 0] base = true := by decide
theorem witness_ResponsePlaced :
    (Answer.ok [] base |>.finish 0x01 (cmd .spi [])).linkIdle = true ∧
      (Answer.ok [] base |>.finish 0x01 (cmd .link [])).linkIdle = false ∧
      (Answer.ok [] base |>.finish 0x01 (cmd .broadcast [])).linkIdle = true ∧
      (Answer.ok [] { base with link := { base.link with pendingSettings := some { d := 1, g := 16, q := 64 } } }
        |>.finish 0x01 (cmd .spi [])).linkIdle = true ∧
      (quietLine answered).linkIdle = false ∧ (quietLine answered).sendDue = true ∧ answered.sendDue = false ∧
      (quietLine { base with notices := { base.notices with marker := true } }).sendDue = true := by decide +kernel
theorem witness_CodeLengthPermission :
    knownCodes.contains 0x62 = false ∧ ready 0x62 .spi [] base = true ∧ knownCodes.contains 0x05 = true ∧
      ready 0x05 .link [] base = true ∧ 0 ∉ bodyLengths 0x05 ∧ 1 ∈ bodyLengths 0x05 ∧
      ready 0x05 .link [1] base = true ∧ permitted 0x05 .link = false := by decide
theorem witness_EntryChecks :
    commandOf (.retire (cmd .spi [9])) = some (0x11, cmd .spi [9]) ∧ ready 0x11 .spi [9] base = true ∧
      base.entry 9 = none ∧ ready 0x11 .spi [9] withLink = true ∧
      (withLink.entry 9).map (·.owner) = some .link ∧ ready 0x1B .spi (3 :: bytes32 0x80000000) base = true ∧
      ready 0x1B .spi (9 :: bytes32 0x7FFFFFFF) base = true := by decide +kernel
theorem witness_Echo :
    ready 0x01 .spi [] base = true ∧ ready 0x01 .link (List.replicate 42 0) base = true ∧
      ready 0x01 .broadcast (List.replicate 43 0) base = true ∧ ready 0x01 .spi (List.replicate 44 0) base = true := by
  decide +kernel
theorem witness_StatusReport : ready 0x02 .spi [] base = true ∧ ready 0x02 .link [] base = true := by decide
theorem witness_ResetPart :
    ready 0x04 .spi [] answered = true ∧ ready 0x04 .spi [] (opened answered) = true ∧
      (opened answered).spi.transaction.isSome = true ∧ (hi 8).length ≤ 8 ∧
      tx [0x5A, 0] ++ hi 3 = spiBits 0x5A ++ (tx [0] ++ hi 3) ∧
      (opened answered).spi.transaction.map (·.copy) = some (some waiting) := by decide +kernel
theorem witness_Quota :
    ready 0x03 .spi [2, 0, 0] base = true ∧ ready 0x03 .spi [0, 1, 1] base = true ∧
      ready 0x03 .spi [0, 0, 0] withIdle = true ∧ 0 < withIdle.ownedCount .spi ∧
      ready 0x03 .spi [0, 1, 0] withIdle = true ∧ withIdle.ownedCount .spi ≤ 1 ∧
      ready 0x03 .spi [1, 0, 1] base = true := by decide +kernel
theorem witness_Alloc :
    ready 0x10 .spi [] base = true ∧ base.ownedCount .spi < base.quotas.get .spi ∧ base.entry 0 = none ∧
      (∀ x : EntryId, x < 0 → (base.entry x).isSome = true) ∧ ready 0x10 .spi [entryByte 255] base = true ∧
      base.entry 255 = none ∧ ready 0x10 .spi [3] withIdle = true ∧ (withIdle.entry 3).isSome = true ∧
      ({ base with quotas := ⟨0, 0⟩ } : State).quotas.get .spi ≤ base.ownedCount .spi := by decide +kernel
/-- Every entry allocated, 200 by SPI and 56 by LINK. -/
def full : State :=
  { base with
    entries := Vector.ofFn fun e : EntryId => some (Entry.initial (if e.val < 200 then Port.spi else Port.link)) }
theorem witness_Alloc_full :
    ready 0x10 .spi [] full = true ∧ full.ownedCount .spi < full.quotas.get .spi ∧
      ∀ e : EntryId, (full.entry e).isSome = true := by decide +kernel
theorem witness_Retire :
    ready 0x11 .spi [entryByte 3] noticed = true ∧ noticed.entry 3 = some idleEntry ∧ idleEntry.owner = .spi := by
  decide +kernel
/-- The configuration of the reset values of an entry. -/
def plainConfig : EntryConfig :=
  { tag := 0, period := 0, reps := 1, delay := 1, action := .line .set 6, late := .fire, notify := false
    repark := false, chain := none, trigger := none }
theorem witness_Config :
    configInRange plainConfig ∧ ready 0x12 .spi (configBytes 3 plainConfig) withIdle = true ∧
      withIdle.entry 3 = some idleEntry ∧ base.entry 3 = none ∧ idleEntry.state = .idle ∧
      withIdle.lines.modeAdmits plainConfig.action = true ∧
      (sequence (claimed withIdle)).lines.modeAdmits { plainConfig with action := .line .set 4 }.action = false ∧
      withIdle.lines.claimsAction .spi plainConfig.action = false ∧
      (claimed withIdle).lines.claimsAction .spi plainConfig.action = true ∧
      (claimed withIdle).lines.claimsTrigger .spi plainConfig.trigger = true := by
  refine ⟨⟨by decide, by decide, by decide, by decide⟩, ?_⟩
  decide +kernel
theorem witness_Config_chain :
    withLink.entry 9 = some (Entry.initial .link) ∧ ownedBy .spi (withLink.entry 9) = false ∧
      withLink.entry 8 = none ∧ ready 0x12 .spi (configBytes 3 { plainConfig with chain := some 9 }) withLink = true := by
  decide +kernel
theorem witness_Config_range :
    ready 0x12 .spi (List.replicate 19 0) withIdle = true ∧ readConfigBody (List.replicate 19 0) = none := by
  decide +kernel
theorem witness_Look : ready 0x1C .link [entryByte 3] withIdle = true ∧ withIdle.entry 3 = some idleEntry ∧
    base.entry 3 = none := by decide +kernel
theorem witness_Give :
    ready 0x1D .spi [entryByte 3] noticed = true ∧ noticed.entry 3 = some idleEntry ∧ idleEntry.owner = .spi ∧
      noticed.ownedCount .link < noticed.quotas.get .link ∧ idleEntry.chain = none ∧
      (∀ x : EntryId, (noticed.entry x).map (·.chain) ≠ some (some 3)) ∧
      noticed.lines.claimsEntry .link idleEntry = true ∧
      (entryReport 3 noticed.notices.queues.spi).isSome = true ∧
      entryReport 3 withIdle.notices.queues.spi = none ∧
      withIdle.lines.claimsEntry .link { idleEntry with trigger := some 0 } = false := by decide +kernel
theorem witness_EvictLeave :
    ready 0x05 .spi [1] withLink = true ∧ ready 0x05 .spi [0] base = true ∧ ready 0x06 .link [] withLink = true ∧
      ready 0x06 .broadcast [] withLink = true := by decide +kernel
theorem witness_MoveBetweenLists : DueOrder base := List.Pairwise.nil
theorem witness_FirstGridPoint :
    difference 0 1 < 0 ∧ Config.mostPast < difference 0 0x7FFFFFFF ∧ difference 0 0x7FFFFFFF < 0 ∧ (1 : Word) ≠ 0 ∧
      (1 : Word).msb = false ∧ (0x7FFFFFFF : Word).msb = false := by decide
theorem witness_Stage :
    ready 0x13 .spi (stageBytes 3 { period := some 0x7FFFFFFF, action := some (.line .set 0) }) (claimed withIdle) =
        true ∧
      (claimed withIdle).entry 3 = some idleEntry ∧
      (claimed withIdle).lines.modeAdmits (.line .set 0) = true ∧
      (claimed withIdle).lines.claimsAction .spi (.line .set 0) = true ∧
      withIdle.lines.claimsAction .spi (.line .set 0) = false ∧ withIdle.lines.modeAdmits (.stepFwd 0) = false ∧
      base.entry 3 = none ∧ ready 0x13 .spi [3, 4, 0, 0, 0, 0, 0, 0, 0] withIdle = true ∧
      readStageBody [3, 4, 0, 0, 0, 0, 0, 0, 0] = none := by decide +kernel
theorem witness_ArmAt :
    ready 0x14 .spi (entryByte 3 :: bytes32 0) withIdle = true ∧ withIdle.entry 3 = some idleEntry ∧
      idleEntry.state = .idle ∧ difference 0 withIdle.time.count = 0 ∧
      difference 0xFFFFFFFF withIdle.time.count = -1 ∧ difference 0x80010000 withIdle.time.count = -2147418112 ∧
      difference 0x8000FFFF withIdle.time.count = -2147418113 ∧ dueNow.entry 3 = some (armedEntry 0) := by
  decide +kernel
theorem witness_ArmInResume :
    ready 0x15 .spi (entryByte 3 :: bytes32 1) withIdle = true ∧ (0x7FFFFFFF : Word).msb = false ∧
      (0x80000000 : Word).msb = true ∧ withIdle.entry 3 = some idleEntry ∧
      ready 0x19 .spi [entryByte 3] (withEntry { idleEntry with state := .held 0 }) = true ∧
      (withEntry { idleEntry with state := .held 0 }).entry 3 = some { idleEntry with state := .held 0 } := by
  decide +kernel
theorem witness_ParkDisarmSuspend :
    ready 0x16 .spi [entryByte 3] withIdle = true ∧ ready 0x17 .spi [entryByte 3] dueNow = true ∧
      ready 0x18 .spi [entryByte 3] dueNow = true ∧ withIdle.entry 3 = some idleEntry ∧ idleEntry.trigger = none ∧
      (withEntry { idleEntry with trigger := some 7 }).entry 3 = some { idleEntry with trigger := some 7 } ∧
      (3 : EntryId) ∉ ((withEntry { idleEntry with trigger := some 7 }).triggers.get 7).park ∧
      dueNow.entry 3 = some (armedEntry 0) := by decide +kernel
theorem witness_RetimeNudge :
    ready 0x1A .spi (entryByte 3 :: bytes32 0) dueNow = true ∧ ready 0x1B .spi (entryByte 3 :: bytes32 1) dueNow = true ∧
      dueNow.entry 3 = some (armedEntry 0) ∧ withIdle.entry 3 = some idleEntry ∧
      difference 0x7FFFFFFF 0 + (1 : Word).toInt = 2147483648 ∧
      difference 0xFFFFFFFF 0 + (0x80010000 : Word).toInt = -2147418113 ∧
      difference 0 0 + (0x80010000 : Word).toInt = -2147418112 := by decide +kernel

/-- Entry 3 fires next with a record. -/
theorem fires_of {s : State} {e : EntryId} {a : Entry} {due : Word} (h : s.dueHead = some (e, a, due)) :
    Fires s e a due := by
  unfold State.dueHead at h
  split at h
  · rename_i hr
    simp only [State.running, Bool.and_eq_true, Bool.not_eq_true', beq_iff_eq] at hr
    split at h
    · simp at h
    · rename_i x xs hl
      split at h
      · simp at h
      · rename_i b hb
        split at h
        · rename_i w hw
          split at h
          · rename_i hd
            simp only [Option.some.injEq, Prod.mk.injEq] at h
            obtain ⟨rfl, rfl, rfl⟩ := h
            exact ⟨hr.1, hr.2, by simp [hl], hb, hw, hd⟩
          · simp at h
        · simp at h
  · simp at h

theorem witness_FireFrame : Fires dueNow 3 (armedEntry 0) 0 := fires_of (by decide +kernel)
theorem witness_FireFrame_none : (armedEntry 0).action = .none := rfl
theorem witness_FireFrame_nothing : base.dueHead = none := by decide
theorem witness_LineAction :
    Fires (withEntry { armedEntry 0 with action := .line .toggle 15 }) 3
      { armedEntry 0 with action := .line .toggle 15 } 0 := fires_of (by decide +kernel)
theorem witness_StepAction :
    Fires (sequence (withEntry { armedEntry 0 with action := .stepRev 1 })) 3
        { armedEntry 0 with action := .stepRev 1 } 0 ∧
      ((sequence (withEntry { armedEntry 0 with action := .stepRev 1 })).lines.groups.get 1).mode = .sequence :=
  ⟨fires_of (by decide +kernel), by decide +kernel⟩
theorem witness_StepAction_limit :
    Fires (limited (sequence (withEntry { armedEntry 0 with action := .stepFwd 1 }))) 3
        { armedEntry 0 with action := .stepFwd 1 } 0 ∧
      withinLimits (some { min := 0, max := 0 }) 1 = false :=
  ⟨fires_of (by decide +kernel), by decide⟩
theorem witness_LoadPhaseAction :
    Fires (sequence (withEntry { armedEntry 0 with action := .loadPhase 1 7 })) 3
      { armedEntry 0 with action := .loadPhase 1 7 } 0 := fires_of (by decide +kernel)
theorem not_stepRefused {s : State} {a : Entry} (h : a.action = .none) : ¬ stepRefused s a := by
  rintro ⟨g, ⟨h', -⟩ | ⟨h', -⟩⟩ <;> simp [h] at h'
theorem witness_FireCompletes :
    Fires dueNow 3 (armedEntry 0) 0 ∧ ¬ stepRefused dueNow (armedEntry 0) ∧ (armedEntry 0).chain ≠ some 3 ∧
      Fires (withEntry { armedEntry 0 with period := 5, left := 1, repark := true, trigger := some 7 }) 3
        { armedEntry 0 with period := 5, left := 1, repark := true, trigger := some 7 } 0 :=
  ⟨fires_of (by decide +kernel), not_stepRefused rfl, by decide, fires_of (by decide +kernel)⟩
theorem witness_FireCompletes_chained :
    Fires (chained idleEntry) 3 { armedEntry 0 with chain := some 4 } 0 ∧
      ¬ stepRefused (chained idleEntry) { armedEntry 0 with chain := some 4 } ∧
      ({ armedEntry 0 with chain := some 4 } : Entry).chain ≠ some 3 :=
  ⟨fires_of (by decide +kernel), not_stepRefused rfl, by decide⟩
theorem witness_FireRearms :
    Fires (withEntry { armedEntry 0 with period := 5, left := 2 }) 3 { armedEntry 0 with period := 5, left := 2 } 0 ∧
      Fires (withEntry { armedEntry 0xFFFFFFF0 with period := 5, reps := 0, late := .refuse }) 3
        { armedEntry 0xFFFFFFF0 with period := 5, reps := 0, late := .refuse } 0xFFFFFFF0 ∧
      difference (0xFFFFFFF0 + 5) 0 < 0 :=
  ⟨fires_of (by decide +kernel), fires_of (by decide +kernel), by decide⟩
theorem witness_FireRearms_chained :
    Fires ((chained idleEntry).move 3 { armedEntry 0 with chain := some 4, period := 5, left := 2 }) 3
        { armedEntry 0 with chain := some 4, period := 5, left := 2 } 0 ∧
      ({ armedEntry 0 with chain := some 4 } : Entry).chain ≠ some 3 :=
  ⟨fires_of (by decide +kernel), by decide⟩
theorem witness_FireChain :
    Fires (chained idleEntry) 3 { armedEntry 0 with chain := some 4 } 0 ∧ (chained idleEntry).entry 4 = some idleEntry ∧
      Fires (chained (armedEntry 90)) 3 { armedEntry 0 with chain := some 4 } 0 ∧
      Fires (withEntry { armedEntry 0 with chain := some 3 }) 3 { armedEntry 0 with chain := some 3 } 0 :=
  ⟨fires_of (by decide +kernel), by decide +kernel, fires_of (by decide +kernel), fires_of (by decide +kernel)⟩
/-- Entry 3, chained to itself and periodic, re-arms; it finds itself ARMED. -/
theorem witness_FireChain_rearms :
    Fires (withEntry { armedEntry 0 with chain := some 3, period := 5, left := 2 }) 3
        { armedEntry 0 with chain := some 3, period := 5, left := 2 } 0 ∧
      ¬ stepRefused (withEntry { armedEntry 0 with chain := some 3, period := 5, left := 2 })
        { armedEntry 0 with chain := some 3, period := 5, left := 2 } ∧
      0 ≤ difference (0 + 5) 0 :=
  ⟨fires_of (by decide +kernel), not_stepRefused rfl, by decide⟩
/-- Entry 3 chained to itself with a past target, under SKIP with and without a period, and under REFUSE. -/
theorem witness_FireChain_self_late :
    Fires (withEntry { armedEntry 0x80000001 with chain := some 3, late := .skip }) 3
        { armedEntry 0x80000001 with chain := some 3, late := .skip } 0x80000001 ∧
      Fires (withEntry { armedEntry 0x80000001 with chain := some 3, late := .skip, period := 5, left := 1 }) 3
        { armedEntry 0x80000001 with chain := some 3, late := .skip, period := 5, left := 1 } 0x80000001 ∧
      Fires (withEntry { armedEntry 0x80000001 with chain := some 3, late := .refuse }) 3
        { armedEntry 0x80000001 with chain := some 3, late := .refuse } 0x80000001 ∧
      difference (0x80000001 + 1) 0 < 0 :=
  ⟨fires_of (by decide +kernel), fires_of (by decide +kernel), fires_of (by decide +kernel), by decide⟩
/-- Entry 4 as a late target, under SKIP with and without a period, and under REFUSE. -/
theorem witness_FireChain_target_late :
    let late := fun (b : Entry) => (base.setEntry 4 (some b)).move 3 { armedEntry 0x80000001 with chain := some 4 }
    (∀ b ∈ [{ idleEntry with late := .skip }, { idleEntry with late := .skip, period := 5 },
        { idleEntry with late := .refuse }],
      (late b).entry 4 = some b ∧
        (late b).dueHead = some (3, { armedEntry 0x80000001 with chain := some 4 }, 0x80000001)) ∧
      difference (0x80000001 + idleEntry.delay) 0 < 0 := by decide +kernel
theorem witness_FirePosts :
    Fires (dueNow.post .spi 3 5 {} 100) 3 (armedEntry 0) 0 ∧
      (entryReport 3 (dueNow.post .spi 3 5 {} 100).notices.queues.spi).isSome = true ∧
      Fires (withEntry { armedEntry 0 with notify := false }) 3 { armedEntry 0 with notify := false } 0 :=
  ⟨fires_of (by decide +kernel), by decide +kernel, fires_of (by decide +kernel)⟩
/-- The last firing of a periodic entry under REFUSE, whose next due would be past, forces nothing. -/
theorem witness_FirePosts_last :
    let a := { armedEntry 0x80000001 with notify := false, period := 5, left := 1, late := .refuse }
    Fires (withEntry a) 3 a 0x80000001 ∧ a.reps ≠ 0 ∧ difference (0x80000001 + 5) 0 < 0 :=
  ⟨fires_of (by decide +kernel), by decide, by decide⟩
/-- A posting that makes the link queue non-empty, with link signalling on. -/
theorem witness_FirePosts_marker :
    let a : Entry := { armedEntry 0 with owner := .link }
    let s := { withEntry a with notices := { base.notices with signalling := ⟨false, true⟩ } }
    s.dueHead = some (3, a, 0) ∧ s.notices.queues.link = [] ∧ s.notices.signalling.link = true ∧
      (after (exec .fire s)).notices.marker = true := by decide +kernel
theorem witness_LineCommands :
    ready 0x30 .spi [0xFF, 0xFF, 0xFF] base = true ∧ ready 0x30 .link [1, 0, 0] (claimed base) = true ∧
      ready 0x31 .spi [0, 0x80, 0x80] (claimed base) = true ∧ (claimed base).lines.lineClaims.get 15 = some .spi ∧
      ready 0x31 .spi [0, 0, 4] parked = true ∧ (parked.triggers.get 2).park ≠ [] ∧
      ready 0x32 .spi [1, 0, 0, 0x80, 0, 0] base = true ∧ ready 0x32 .spi [0x10, 0, 0, 0, 0, 0] (sequence base) = true ∧
      ((sequence base).lines.groups.get (groupOf 4)).mode = .sequence ∧
      ready 0x32 .spi [1, 0x80, 0, 0x80, 1, 0] (claimed base) = true := by decide +kernel
theorem witness_GroupCommands :
    ready 0x33 .spi (groupModeBytes 3 .sequence) (claimed base) = true ∧
      (claimed base).lines.claimsGroup .spi 3 = true ∧ base.lines.claimsGroup .spi 3 = false ∧
      (∀ e : EntryId, (claimed base).entry e = none) ∧ { idleEntry with action := .line .set 0 }.bars 0 .sequence = true ∧
      ready 0x34 .spi (loadPhasesBytes 0 (Vector.replicate 8 15)) (claimed base) = true ∧
      ready 0x35 .spi (setGroupBytes 0 { index := some 7, position := some 0x80000000, step := some .two })
        (claimed base) = true ∧
      ready 0x36 .spi (setLimitsBytes 0 (some { min := 0, max := 0 })) (claimed base) = true ∧
      withinLimits (some { min := 0, max := 0 }) 0 = true ∧ withinLimits (some { min := 1, max := 1 }) 0 = false ∧
      ready 0x33 .spi [4, 0] base = true ∧ readGroupModeBody [4, 0] = none := by decide +kernel
theorem witness_ReadLines :
    ready 0x37 .spi [] base = true ∧ ready 0x37 .link [3] base = true ∧ ready 0x37 .link [4] base = true := by
  decide +kernel

/-- The park list of T2 holds entry 3 and no other list holds an entry. -/
theorem listLaw_parked : ListLaw parked where
  dueOnce := by decide +kernel
  dueArmed := by decide +kernel
  parkOnce := by decide +kernel
  parked t e := by
    have h : ∀ t e, e ∈ (parked.triggers.get t).park ↔ t = 2 ∧ e = 3 := by decide +kernel
    have h3 : parked.entry 3 = some { idleEntry with state := .parked, trigger := some 2, delay := 5 } := by
      decide +kernel
    have hn : ∀ e, e ≠ 3 → parked.entry e = none := by decide +kernel
    rw [h]
    constructor
    · rintro ⟨rfl, rfl⟩
      exact ⟨_, h3, rfl, rfl⟩
    · rintro ⟨a, ha, -, ht⟩
      by_cases he : e = 3
      · subst he
        rw [h3] at ha
        obtain rfl := Option.some.inj ha
        exact ⟨(Option.some.inj ht).symm, rfl⟩
      · rw [hn e he] at ha
        cases ha

theorem witness_TriggerEdge :
    parked.phase = .running ∧ ListLaw parked ∧ DueOrder parked ∧ parked.time.frozen = false ∧
      passes false false [true, false] = false ∧ passes false false [true, true] = true ∧
      passes false false [true] = false ∧ (parked.triggers.get 2).level = false ∧
      (parked.triggers.get 2).sample = false :=
  ⟨by decide +kernel, listLaw_parked, List.Pairwise.nil, by decide +kernel, rfl, rfl, rfl, by decide +kernel,
    by decide +kernel⟩
/-- Entries 3 and 4, parked in that order on T2 in ALL mode with one delay, and entry 5 ARMED at the due they take. -/
def parkedTwo : State :=
  let waits : Entry := { idleEntry with state := .parked, trigger := some 2, delay := 5 }
  let s := ((base.move 5 (armedEntry 5)).move 3 waits).move 4 waits
  s.setTrigger 2 { s.triggers.get 2 with edge := .both, mode := .all }
theorem witness_TriggerEdge_all :
    (parkedTwo.triggers.get 2).park = [3, 4] ∧ parkedTwo.dueList = [5] ∧
      (after (exec (.triggerEdge 2 [true, true]) parkedTwo)).dueList = [5, 3, 4] ∧
      [(3 : EntryId), 4].Sublist (parkedTwo.triggers.get 2).park := by decide +kernel
theorem witness_TriggerCommands :
    ready 0x40 .spi [7, 3, 1] (claimed base) = true ∧ (claimed base).lines.triggerClaims.get 7 = some .spi ∧
      ready 0x40 .link [7, 3, 1] (claimed base) = true ∧ ready 0x40 .spi [8, 0, 0] base = true ∧
      ready 0x40 .spi [0, 4, 0] base = true ∧ ready 0x41 .spi [7] base = true ∧ ready 0x41 .spi [8] base = true := by
  decide +kernel
theorem witness_NoticeCommands :
    ready 0x20 .spi [3] noticed = true ∧ ready 0x20 .spi [0] base = true ∧ ready 0x20 .link [4] base = true ∧
      ready 0x20 .link [1] base = true ∧ ready 0x21 .link [1, 1] base = true ∧ ready 0x21 .spi [2, 0] base = true := by
  decide +kernel
theorem witness_Tick :
    (prescaled 2).phase = .running ∧ (prescaled 2).time.frozen = false ∧ (prescaled 2).time.changeover = none ∧
      (prescaled 2).time.hold = false ∧ (prescaled 2).time.prescaler + 5 < 2 ^ (prescaled 2).time.exponent.toNat ∧
      (prescaled 2).time.prescaler + 6 = 2 ^ (prescaled 2).time.exponent.toNat ∧
      (∀ e ∈ (prescaled 2).dueList, (prescaled 2).waited e < 65535 ∧ (prescaled 2).keyOf e ≠ Config.mostPast) ∧
      (later 65534 dueNow).dueList = [3] ∧ (later 65534 dueNow).waited 3 < 65535 ∧
      (later 65534 dueNow).keyOf 3 ≠ Config.mostPast ∧
      (later 65534 dueNow).time.prescaler + 1 = 2 ^ (later 65534 dueNow).time.exponent.toNat ∧
      (∃ e ∈ (later 65535 dueNow).dueList, 65535 ≤ (later 65535 dueNow).waited e) ∧
      (later 65535 dueNow).time.prescaler + 1 = 2 ^ (later 65535 dueNow).time.exponent.toNat ∧
      (∃ e ∈ mostPastDue.dueList, mostPastDue.keyOf e = Config.mostPast) ∧
      mostPastDue.time.prescaler + 1 = 2 ^ mostPastDue.time.exponent.toNat ∧
      ({ base.time with freezePin := true } : TimeBase).frozen = true := by decide +kernel
theorem witness_LockEvents :
    (synth .acquiring).time.synth = .acquiring ∧ 8 * 6000000 ≤ 12000000 * 4 ∧ 25000000 * 4 ≤ 100000000 ∧
      (synth .locked).time.synth = .locked ∧ onSynth.time.source = .synth ∧ onSynth.time.changeover = none ∧
      onSynth.time.policy = .fallback := by decide
theorem witness_ChangeoverFreezePin :
    (after (exec .lockLost onSynth)).time.changeover = some ⟨.ref, .fallback⟩ ∧ base.time.changeover = none ∧
      passes base.time.freezePin base.time.freezeSample (hi 2) = true ∧
      passes base.time.freezePin base.time.freezeSample (hi 1) = false := by decide +kernel
theorem witness_ReadSetTime : ready 0x50 .link [] base = true ∧ ready 0x51 .spi (bytes32 0xFFFFFFFF) dueNow = true := by
  decide +kernel
theorem witness_SynthCommands :
    ready 0x52 .spi (synthSetBytes { nl := some (15, 15), policy := some .hold }) base = true ∧
      ready 0x52 .spi [1, 16, 0, 0] base = true ∧ readSynthSetBody [1, 16, 0, 0] = none ∧
      ready 0x53 .spi [] base = true ∧ base.time.l ≠ 0 ∧ ready 0x54 .spi [] (synth .unlocked) = true := by decide +kernel
theorem witness_SelectPrescaleFreeze :
    ready 0x55 .spi [1] (synth .locked) = true ∧ ready 0x55 .spi [2] base = true ∧ ready 0x56 .spi [15] base = true ∧
      ready 0x56 .spi [16] base = true ∧ ready 0x57 .spi [1] base = true ∧ ready 0x57 .spi [2] base = true := by
  decide +kernel
/-- SEL is low in a transaction that a RESET_PART cut after five bits. -/
def cut : State := run (.resetPart · (hi 5)) 0x04 .spi [] (opened answered)
theorem witness_SpiTransactions :
    base.phase = .running ∧ base.spi.selLow = false ∧ (opened base).spi.transaction.isSome = true ∧
      (opened base).phase ≠ .held ∧ (opened base).spi.selLow = true ∧ (hi 7).length < 8 ∧
      tx [0x3C, 0] = spiBits 0x3C ++ tx [0] ∧ base.spi.transaction = none ∧ base.spi.cut = none ∧
      (opened answered).spi.transaction.map (·.copy) = some (some waiting) ∧
      cut.phase ≠ .held ∧ cut.spi.selLow = true ∧ cut.spi.transaction = none ∧ cut.spi.cut.isSome = true ∧
      (after (exec .nresetAssert (opened base))).phase = .held := by decide +kernel
theorem witness_CommandTransaction :
    (opened base).spi.transaction.isSome = true ∧ (commandBytes 1 2 (List.replicate 44 0)).length = 48 ∧
      (hi 7).length < 8 ∧
      (commandBytes 1 2 []).getLast? = some (crc8 (commandBytes 1 2 []).dropLast) := by decide +kernel
theorem witness_FetchTransaction :
    ((opened answered).spi.transaction.map (·.copy)) = some (some waiting) ∧ (responseBytes waiting).length = 7 ∧
      (responseBytes waiting).length ≤ (hi 56).length / 8 ∧ (hi 55).length / 8 < (responseBytes waiting).length ∧
      (run .echo 0x01 .spi [] (opened answered)).spi.transaction.map (·.placed) = some true := by decide +kernel
theorem witness_StartBitsAndGaps :
    base.phase = .running ∧ base.link.transmitter = .quiet ∧ base.link.insideChar = false ∧
      base.link.idleCount ≤ base.link.settings.q.toNat ∧ (base.link.hear (hi 6)).rxdHigh = true ∧
      falls base.link.rxdHigh (hi 6) = false ∧ falls base.link.rxdHigh [true, false] = true ∧
      (inside base).link.insideChar = true ∧ (assembling [] base).link.receiver ≠ .hunting ∧
      2 ≤ [(hi 9)[6]?, (hi 9)[7]?, (hi 9)[8]?].count (some true) ∧
      (lateInside.link.hear (hi 5)).sinceChar < 16 * base.link.settings.g.toNat + 7 ∧
      16 * base.link.settings.g.toNat + 7 ≤ (lateInside.link.hear (hi 9)).sinceChar ∧
      (assembling [] base).link.settings.g = 40 ∧
      ({ base.link with receiver := .assembling false [] }.hear (hi 646)).sinceChar < 16 * 40 + 7 ∧
      16 * 40 + 7 ≤ ({ base.link with receiver := .assembling false [] }.hear (hi 647)).sinceChar ∧
      answered.link.settings.q.toNat ≤ (answered.link.hear (hi 64)).idleCount ∧
      (answered.link.hear (hi 63)).idleCount < answered.link.settings.q.toNat := by decide +kernel
theorem witness_Character :
    (inside base).phase = .running ∧ (inside base).link.transmitter = .quiet ∧ (inside base).link.insideChar = true ∧
      (line 0xBB false true).length = 169 ∧ readBit (false :: line 0xBB false true) 0 = false ∧
      readData (false :: line 0xBB false true) = 0xBB ∧ readMark (false :: line 0xBB false true) = false ∧
      readStop (false :: line 0xBB false true) = true ∧ readStop (false :: line 0xBB true false) = false ∧
      readMark (false :: line 0xBB true false) = true ∧
      (assembling [3, 2, 1] base).link.receiver = .assembling false [3, 2, 1] ∧ crc8 [3, 2, 1] = 0xBB := by
  decide +kernel
theorem witness_Transmission :
    answered.link.settings.q.toNat ≤ (answered.link.hear (hi 64)).idleCount ∧ answered.link.receiver = .hunting ∧
      (answered.link.hear (hi 63)).idleCount < answered.link.settings.q.toNat ∧
      falls answered.link.rxdHigh (hi 64) = false ∧ (sending 1400).link.transmitter ≠ .quiet ∧
      1400 + 8 = 176 * (answered.link.characters (responseBytes waiting)).length ∧
      (answered.link.characters (responseBytes waiting))[1407 / 176]?.isSome = true := by decide +kernel
/-- A pending marker and no response: the marker is sent, and its request becomes none. -/
theorem witness_Transmission_marker :
    let s := { base with notices := { base.notices with marker := true } }
    s.ctl.responses.link = none ∧ s.notices.marker = true ∧
      (after (exec (.transmissionBegin (hi 64)) s)).link.transmitter =
        .sending .marker [{ data := 0x8F, mark := true }, { data := 0x4E, mark := false }] 0 ∧
      (after (exec (.transmissionBegin (hi 64)) s)).notices.marker = false := by decide +kernel
theorem witness_LinkSettingsCommands :
    ready 0x60 .spi [0, 0x10, 16, 64] base = true ∧ ({ d := 0x1000, g := 16, q := 64 } : LinkSettings).inRange ∧
      ¬ ({ d := 0x1001, g := 16, q := 64 } : LinkSettings).inRange ∧ ready 0x61 .link [] base = true ∧
      base.linkIdle = true := by
  refine ⟨by decide +kernel, ?_, ?_, by decide +kernel, by decide⟩ <;> unfold LinkSettings.inRange <;> decide
theorem witness_Resets :
    base.phase ≠ .held ∧ (after (exec .nresetAssert base)).phase = .held ∧
      (after (exec (.powerOnReset 0 0 false) base)).phase = .settling ∧ allPassed (steady 0x5A true) = true ∧
      allPassed (steady 0x5A true).dropLast = false := by decide +kernel
theorem witness_FrameRoundTrip : (List.replicate 44 (0 : Byte)).length ≤ 44 ∧ (hi 7).length < 8 := by decide +kernel
theorem witness_EntryLawsKept : QuotaLaw withIdle ∧ ChainLaw withIdle ∧ step withIdle = .next withIdle.refCycle := by
  refine ⟨fun p => by cases p <;> decide +kernel, fun e a h => ?_, rfl⟩
  have none_chained : ∀ e, (withIdle.entry e).all (fun a => a.chain.isNone && !a.repark) = true := by decide +kernel
  have ha := none_chained e
  rw [h] at ha
  simp only [Option.all_some, Bool.and_eq_true, Bool.not_eq_true', Option.isNone_iff_eq_none] at ha
  constructor
  · intro t ht
    rw [ha.1] at ht
    cases ht
  · intro hr
    rw [ha.2] at hr
    cases hr
theorem witness_ListLawsKept :
    ListLaw parked ∧ DueOrder parked ∧ PromptLaw parked ∧ step parked = .next parked.refCycle :=
  ⟨listLaw_parked, List.Pairwise.nil, ⟨by decide +kernel, by decide +kernel⟩, rfl⟩
theorem witness_PromptLaw :
    PromptLaw (later 65535 dueNow) ∧ (later 65535 dueNow).dueList = [3] ∧ ¬ PromptLaw (later 65536 dueNow) :=
  ⟨⟨by decide +kernel, by decide +kernel⟩, by decide +kernel,
    fun h => absurd (h.prompt 3 (by decide +kernel)) (by decide +kernel)⟩
theorem witness_LineLawsKept :
    ActionLaw (sequence (claimed base)) ∧ GroupLaw (sequence (claimed base)).lines := by
  refine ⟨fun e a h => ?_, ?_⟩
  · have free : ∀ e, (sequence (claimed base)).entry e = none := by decide +kernel
    rw [free e] at h
    cases h
  · unfold GroupLaw
    decide +kernel
theorem witness_NoticeLawsKept : NoticeLaw noticed ∧ MarkerLaw noticed.notices := by
  have hs : noticed.notices.queues.spi =
      [.entry 3 { tag := 5, count := 1, flags := { late := true }, lastDue := 100 }] := by decide +kernel
  have hl : noticed.notices.queues.link = [] := by decide +kernel
  refine ⟨⟨fun p => ?_, fun p e r h => ?_, fun p i h => ?_, fun i h => ?_⟩, fun h => ?_⟩
  · cases p <;> simp [PerPort.get, hs, hl]
  · cases p
    · simp only [PerPort.get, hs, List.mem_singleton, NoticeItem.entry.injEq] at h
      rw [h.1]
      decide +kernel
    · simp [PerPort.get, hl] at h
  · cases p
    · simp only [PerPort.get, hs, List.mem_singleton] at h
      subst h
      decide
    · simp [PerPort.get, hl] at h
  · simp [hl] at h
  · exact absurd h (by decide +kernel)
theorem witness_TimeLawKept : TimeLaw onSynth.time where
  runs := by decide
  range := by decide
  towardSynth c h := by cases h
  towardRef c h := by cases h
  held := by decide
  prescaler := by decide
theorem witness_LinkLawKept : LinkLaw answered where
  oneSlot := by decide
  sending what chars sent h := by cases h
  settled := by decide
  begun := by decide
  address := by decide
  inForce := by unfold LinkSettings.inRange; decide
  waiting w h := by cases h
  idle := by decide
/-- A pin reset leaves the part held, with every reset value. -/
def heldPart : State := after (exec .nresetAssert (opened noticed))
theorem witness_HeldLaw : heldPart.phase = .held ∧ HeldLaw heldPart := by
  refine ⟨by decide +kernel, fun _ => ⟨⟨?_, ?_, ?_, ?_, ?_, ?_, ?_, ?_, ?_, ?_, ?_, ?_, ?_, ?_⟩, ?_⟩⟩ <;> decide +kernel

end Sys2Proof.Tests
end

section
/-!
PROOFS. What each action of a firing does to the line unit (R63, R64, R65), and what a firing leaves of its own entry and
of its notice.
-/
namespace Sys2Proof.Machine

/-! ### The line unit under an action -/

/-- A line action writes the level of its line alone (R63). -/
theorem getLsbD_lineAction (levels : BitVec 16) (op : LineOp) (l m : Fin 16) :
    (lineAction levels op l).getLsbD m.val =
      if m = l then
        match op with
        | .set => true
        | .clear => false
        | .toggle => !levels.getLsbD l.val
      else levels.getLsbD m.val := by
  by_cases h : m = l
  · subst h
    cases op <;> simp [lineAction]
  · have hbit : (BitVec.twoPow 16 l.val).getLsbD m.val = false := by
      have hval : ¬ l.val = m.val := fun hlm => h (Fin.ext hlm.symm)
      rw [BitVec.getLsbD_twoPow, decide_eq_false hval, Bool.and_false]
    rw [if_neg h]
    cases op with
    | set => rw [lineAction, BitVec.getLsbD_or, hbit, Bool.or_false]
    | clear =>
      rw [lineAction, BitVec.getLsbD_and, BitVec.getLsbD_not, hbit, decide_eq_true m.isLt, Bool.not_false,
        Bool.and_true, Bool.and_true]
    | toggle => rw [lineAction, BitVec.getLsbD_xor, hbit, Bool.xor_false]

theorem StepSize.index_eq (size : StepSize) : size.index = if size = .one then 1 else 2 := by
  cases size <;> rfl

/-- A step writes the position and the index of the group alone (R64). -/
theorem Group.stepped_eq (g : Group) (forward : Bool) :
    g.stepped forward =
      { g with
        position := if forward then g.position + 1 else g.position - 1
        index := if forward then g.index + g.step.index else g.index - g.step.index } := by
  cases forward <;> rfl

theorem LineUnit.deliver_step (u : LineUnit) (g : Fin 4) (forward : Bool) :
    u.deliver (if forward then .stepFwd g else .stepRev g) = u.stepGroup g forward := by
  cases forward <;> rfl

theorem LineUnit.stepGroup_within {u : LineUnit} {g : Fin 4} {forward : Bool}
    (h : withinLimits (u.groups.get g).limits ((u.groups.get g).stepped forward).position = true) :
    u.stepGroup g forward = (false, u.putGroup g ((u.groups.get g).stepped forward)) :=
  if_pos h

/-- A step beyond the limits is not taken (R64). -/
theorem LineUnit.stepGroup_beyond {u : LineUnit} {g : Fin 4} {forward : Bool}
    (h : withinLimits (u.groups.get g).limits ((u.groups.get g).stepped forward).position = false) :
    u.stepGroup g forward = (true, u) := by
  simp [LineUnit.stepGroup, h]

/-- A group put in place in SEQUENCE mode is read back, its four levels show its pattern, and the other groups and their
levels are kept (R60). -/
theorem LineUnit.putGroup_sequence (u : LineUnit) (g : Fin 4) {group : Group} (h : group.mode = .sequence) :
    (u.putGroup g group).groups.get g = group ∧ groupLevels (u.putGroup g group).levels g = group.pattern ∧
      ∀ k, k ≠ g → (u.putGroup g group).groups.get k = u.groups.get k ∧
        groupLevels (u.putGroup g group).levels k = groupLevels u.levels k := by
  refine ⟨?_, ?_, fun k hk => ⟨?_, ?_⟩⟩
  · rw [LineUnit.putGroup_groups, if_pos rfl]
  · rw [LineUnit.putGroup_levels, if_pos ⟨rfl, h⟩]
  · rw [LineUnit.putGroup_groups, if_neg hk]
  · rw [LineUnit.putGroup_levels, if_neg fun hkg => hk hkg.1]

/-! ### The notice of a firing -/

@[simp] theorem NoticeUnit.setQueue_get (n : NoticeUnit) (p : Port) (q : List NoticeItem) :
    (n.setQueue p q).queues.get p = q := by
  cases p <;> rfl

@[simp] theorem EntryFlags.empty_union (f : EntryFlags) : ({} : EntryFlags).union f = f := by
  simp [EntryFlags.union]

/-- An item after one more firing of an entry: the entry's own item is updated, any other stays (R92). -/
def NoticeItem.again (e : EntryId) (tag : BitVec 16) (flags : EntryFlags) (due : Word) : NoticeItem → NoticeItem
  | .entry e' r => if e' = e then .entry e' (r.again tag flags due) else .entry e' r
  | .timebase n f => .timebase n f

theorem postEntry_of_any {q : List NoticeItem} {e : EntryId} (h : q.any (NoticeItem.reports e) = true)
    (tag : BitVec 16) (flags : EntryFlags) (due : Word) :
    postEntry q e tag flags due = q.map (NoticeItem.again e tag flags due) :=
  if_pos h

theorem postEntry_of_not_any {q : List NoticeItem} {e : EntryId} (h : q.any (NoticeItem.reports e) = false)
    (tag : BitVec 16) (flags : EntryFlags) (due : Word) :
    postEntry q e tag flags due = q ++ [.entry e { tag := tag, count := 1, flags := flags, lastDue := due }] :=
  if_neg (by simp [h])

theorem entryReport_append {e : EntryId} {q : List NoticeItem} (h : q.any (NoticeItem.reports e) = false)
    (tail : List NoticeItem) : entryReport e (q ++ tail) = entryReport e tail := by
  induction q with
  | nil => rfl
  | cons i q ih =>
    rw [List.any_cons, Bool.or_eq_false_iff] at h
    obtain ⟨hi, hq⟩ := h
    cases i with
    | entry e' r =>
      have he : e' ≠ e := by simpa [NoticeItem.reports] using hi
      simp [entryReport, he, ih hq]
    | timebase n f => simp [entryReport, ih hq]

theorem entryReport_of_any {e : EntryId} {q : List NoticeItem} (h : q.any (NoticeItem.reports e) = true) :
    ∃ r, entryReport e q = some r := by
  induction q with
  | nil => cases h
  | cons i q ih =>
    cases i with
    | entry e' r =>
      by_cases he : e' = e
      · exact ⟨r, if_pos he⟩
      · simpa [entryReport, he] using ih (by simpa [NoticeItem.reports, he] using h)
    | timebase n f => exact ih (by simpa [NoticeItem.reports] using h)

theorem entryReport_map_again (e : EntryId) (q : List NoticeItem) (tag : BitVec 16) (flags : EntryFlags) (due : Word) :
    entryReport e (q.map (NoticeItem.again e tag flags due)) =
      (entryReport e q).map fun r => r.again tag flags due := by
  induction q with
  | nil => rfl
  | cons i q ih =>
    cases i with
    | entry e' r =>
      by_cases he : e' = e
      · simp [NoticeItem.again, entryReport, he]
      · simp [NoticeItem.again, entryReport, he, ih]
    | timebase n f => simpa [NoticeItem.again, entryReport] using ih

/-- A posting leaves the entry an item with the due fired, its flags those it carried joined by the new ones (R92). -/
theorem State.entryReport_post (s : State) (p : Port) (e : EntryId) (tag : BitVec 16) (flags : EntryFlags)
    (due : Word) :
    ∃ r, entryReport e ((s.post p e tag flags due).notices.queues.get p) = some r ∧
      r.flags = (s.reportedFlags p e).union flags ∧ r.lastDue = due := by
  rw [State.post_notices, NoticeUnit.setQueue_get]
  cases h : (s.notices.queues.get p).any (NoticeItem.reports e) with
  | false =>
    have hnone : entryReport e (s.notices.queues.get p) = none := by
      simpa [entryReport] using entryReport_append h []
    rw [postEntry_of_not_any h, entryReport_append h]
    exact ⟨_, if_pos rfl, by simp [State.reportedFlags, hnone], rfl⟩
  | true =>
    obtain ⟨r, hr⟩ := entryReport_of_any h
    rw [postEntry_of_any h, entryReport_map_again, hr]
    exact ⟨r.again tag flags due, rfl, by simp [State.reportedFlags, hr, EntryReport.again], rfl⟩

/-! ### What a firing leaves -/

/-- Stage 3 of the firing of a record, as the limits of its action have it (R31). -/
def State.firedStage3 (s : State) (a : Entry) (due : Word) : Stage3 :=
  a.stage3 (s.lines.deliver a.action).1 due s.time.count

/-- The part when stage 3 of a firing ends: the action delivered, and the record in the list of its new state. -/
def State.afterStage3 (s : State) (e : EntryId) (a : Entry) (due : Word) : State :=
  State.place { s.unlist e with lines := (s.lines.deliver a.action).2 } e (s.firedStage3 a due).record

/-- What stage 4 of a firing leaves, with the flags it raises (R36). -/
def State.afterStage4 (s : State) (e : EntryId) (a : Entry) (due : Word) : EntryFlags × State :=
  (s.afterStage3 e a due).stage4 (s.firedStage3 a due).record.chain due

/-- The flags that a firing posts: LATE, those of stage 3 and those of the chain (R30). -/
def State.firingFlags (s : State) (e : EntryId) (a : Entry) (due : Word) : EntryFlags :=
  (({ late := decide (difference due s.time.count < 0) } : EntryFlags).union (s.firedStage3 a due).flags).union
    (s.afterStage4 e a due).1

/-- A firing is its four stages, with the notice posted when notify is on or stage 3 forces it (R30). -/
theorem State.fireEntry_eq (s : State) (e : EntryId) (a : Entry) (due : Word) :
    s.fireEntry e a due =
      if a.notify || (s.firedStage3 a due).forced then
        (s.afterStage4 e a due).2.post a.owner e a.tag (s.firingFlags e a due) due
      else (s.afterStage4 e a due).2 := rfl

@[simp] theorem State.fireEntry_lines (s : State) (e : EntryId) (a : Entry) (due : Word) :
    (s.fireEntry e a due).lines = (s.lines.deliver a.action).2 := by
  rw [State.fireEntry_frame]

theorem State.firedStage3_chain (s : State) (a : Entry) (due : Word) :
    (s.firedStage3 a due).record.chain = a.chain := by
  obtain ⟨st, left, h⟩ := a.stage3_record (s.lines.deliver a.action).1 due s.time.count
  rw [State.firedStage3, h]

@[simp] theorem State.afterStage4_notices (s : State) (e : EntryId) (a : Entry) (due : Word) :
    (s.afterStage4 e a due).2.notices = s.notices := by
  rw [State.afterStage4, State.stage4_frame, State.afterStage3, State.stage3_frame]

/-- Stage 4 keeps the record of every entry but the chain target (R36). -/
theorem State.entry_stage4 (s : State) {chain : Option EntryId} {x : EntryId} (h : chain ≠ some x) (fired : Word) :
    (s.stage4 chain fired).2.entry x = s.entry x := by
  rcases s.stage4_cases chain fired with ⟨flags, h4⟩ | ⟨t, b, due, flags, rfl, -, -, -, h4⟩
  · rw [h4]
  · have hx : x ≠ t := fun hxt => h (by rw [hxt])
    rw [h4, State.move_entry, if_neg hx]

/-- An entry that is not chained to itself ends its firing with the record that stage 3 leaves. -/
theorem State.entry_fireEntry_self (s : State) {e : EntryId} {a : Entry} (h : a.chain ≠ some e) (due : Word) :
    (s.fireEntry e a due).entry e = some (s.firedStage3 a due).record := by
  have h4 : (s.afterStage4 e a due).2.entry e = some (s.firedStage3 a due).record := by
    rw [State.afterStage4, State.entry_stage4 _ (by rwa [State.firedStage3_chain]), State.afterStage3,
      State.place_entry, if_pos rfl]
  rw [State.fireEntry_eq]
  split
  · rw [State.entry_post, h4]
  · exact h4

/-- A firing whose notice is wanted or forced leaves its entry an item with the due fired and its flags joined. -/
theorem State.entryReport_fireEntry (s : State) (e : EntryId) {a : Entry} {due : Word}
    (h : (a.notify || (s.firedStage3 a due).forced) = true) :
    ∃ r, entryReport e ((s.fireEntry e a due).notices.queues.get a.owner) = some r ∧
      r.flags = (s.reportedFlags a.owner e).union (s.firingFlags e a due) ∧ r.lastDue = due := by
  have hprior : (s.afterStage4 e a due).2.reportedFlags a.owner e = s.reportedFlags a.owner e := by
    simp [State.reportedFlags]
  rw [State.fireEntry_eq, if_pos h, ← hprior]
  exact State.entryReport_post _ _ _ _ _ _

/-- A step refused at a limit stops the entry in IDLE with left kept, and forces the notice with LIMIT (R31). -/
theorem State.firedStage3_limit {s : State} {a : Entry} (h : (s.lines.deliver a.action).1 = true) (due : Word) :
    s.firedStage3 a due =
      { record := { a.consumeStaged with state := .idle }, flags := { limit := true }, forced := true } := by
  rw [State.firedStage3, h]
  rfl

end Sys2Proof.Machine
end

section
/-!
PROOFS. The actions of a firing: a line action, a step and a LOAD_PHASE (R63, R64, R65).
-/
namespace Sys2Proof.Proofs
open Sys2Proof.Machine

/-- The lines after a FIRE are those the action of the due head leaves. -/
theorem exec_fire_lines {s : State} {e : EntryId} {a : Entry} {due : Word} (h : Fires s e a due) :
    ∃ t : State, exec .fire s = .next t ∧ t.lines = (s.lines.deliver a.action).2 :=
  ⟨_, exec_fire h, by simp⟩

/-- Settles O27: a step within the limits puts the group one step on, and one beyond them is stage 3's LIMIT stop. -/
theorem stepAction : Obligations.StepAction := by
  intro s e a due g forward hfires haction hmode group position size index
  have hstepped : group.stepped forward = { group with position := position, index := index } := by
    rw [Group.stepped_eq, StepSize.index_eq]
  have hdeliver : s.lines.deliver a.action = s.lines.stepGroup g forward := by
    rw [haction, LineUnit.deliver_step]
  refine ⟨_, exec_fire hfires, fun hwithin => ?_, fun hbeyond => ?_⟩
  · have hlines : (s.fireEntry e a due).settleLink.lines =
        s.lines.putGroup g { group with position := position, index := index } := by
      rw [State.settleLink_lines, State.fireEntry_lines, hdeliver, LineUnit.stepGroup_within, hstepped]
      rwa [hstepped]
    rw [hlines]
    exact s.lines.putGroup_sequence g hmode
  · have hrefused : s.lines.deliver a.action = (true, s.lines) := by
      rw [hdeliver, LineUnit.stepGroup_beyond]
      rwa [hstepped]
    have hstop := State.firedStage3_limit (congrArg Prod.fst hrefused) due
    refine ⟨by simp [hrefused], fun hchain => ?_, ?_⟩
    · rw [State.entry_settleLink, State.entry_fireEntry_self s hchain, hstop]
      exact ⟨_, rfl, rfl, rfl⟩
    · obtain ⟨r, hreport, hflags, hdue⟩ :=
        s.entryReport_fireEntry e (a := a) (due := due) (by rw [hstop, Bool.or_true])
      rw [State.settleLink_queues]
      exact ⟨r, hreport, by simp [hflags, State.firingFlags, hstop, EntryFlags.union], hdue⟩

/-- Settles O26: the action writes one level, and the pins follow the levels and the drives. -/
theorem lineAction : Obligations.LineAction := by
  intro s e a due op l hfires haction
  obtain ⟨t, hexec, hlines⟩ := exec_fire_lines hfires
  have hlevels : t.lines = { s.lines with levels := Machine.lineAction s.lines.levels op l } := by
    rw [hlines, haction]
    rfl
  refine ⟨t, hexec, by rw [hlevels], ?_, fun m => by rw [hlevels]; rfl, fun m hm => ?_⟩
  · rw [hlevels]
    exact (getLsbD_lineAction _ _ _ _).trans (if_pos rfl)
  · rw [hlevels]
    exact (getLsbD_lineAction _ _ _ _).trans (if_neg hm)

/-- Settles O28: the group is put in place with the index of the action. -/
theorem loadPhaseAction : Obligations.LoadPhaseAction := by
  intro s e a due g index hfires haction hmode
  obtain ⟨t, hexec, hlines⟩ := exec_fire_lines hfires
  refine ⟨t, hexec, ?_⟩
  rw [hlines, haction]
  exact s.lines.putGroup_sequence g hmode

end Sys2Proof.Proofs
end

section
/-!
PROOFS. The take of a command whose CODE is known: every command of the part goes through the one check order, with the
body lengths of Table 10.10 and the port permissions of R133.
-/
namespace Sys2Proof.Machine

/-! ### What the check order refuses -/

theorem checked_bad_length {lengthOk : Nat → Bool} {body : List Byte} (permit : Permit)
    (run : Port → List Byte → State → Answer) (p : Port) (s : State) (hl : lengthOk body.length = false) :
    checked lengthOk permit run p body s = Answer.refuse .length s := by
  simp [checked, hl]

theorem checked_not_permitted {lengthOk : Nat → Bool} {body : List Byte} {permit : Permit} {p : Port}
    (run : Port → List Byte → State → Answer) (s : State) (hl : lengthOk body.length = true)
    (hp : permit.admits p = false) : checked lengthOk permit run p body s = Answer.refuse .notPermitted s := by
  simp [checked, hl, hp]

/-! ### The commands and their checks -/

/-- The event is the take of the command under its CODE, by the check order, with the body lengths of Table 10.10 and
the port permission of R133. -/
structure TakenBy (i : Instr) (code : Byte) (c : Cmd) (lengthOk : Nat → Bool) (permit : Permit)
    (run : Port → List Byte → State → Answer) : Prop where
  exec_eq : ∀ s, exec i s = .next (takeCommand code lengthOk permit run c s)
  length_iff : ∀ n, lengthOk n = true ↔ n ∈ bodyLengths code
  admits_eq : ∀ p, permit.admits p = permitted code p

section
variable {i : Instr} {code : Byte} {c : Cmd} {lengthOk : Nat → Bool} {permit : Permit}
  {run : Port → List Byte → State → Answer} {s : State}

/-- A command of one body length meets its row of Table 10.10. -/
theorem TakenBy.of_exactly {n : Nat} (hexec : ∀ s, exec i s = .next (takeCommand code (exactly n) permit run c s))
    (hlen : bodyLengths code = [n]) (hspi : permit.admits .spi = permitted code .spi)
    (hlink : permit.admits .link = permitted code .link) : TakenBy i code c (exactly n) permit run where
  exec_eq := hexec
  length_iff k := by simp [hlen]
  admits_eq
    | .spi => hspi
    | .link => hlink

/-- A command with an optional argument byte meets its row of Table 10.10. -/
theorem TakenBy.of_optional
    (hexec : ∀ s, exec i s = .next (takeCommand code (fun n => n == 0 || n == 1) .either run c s))
    (hlen : bodyLengths code = [0, 1]) (hperm : ∀ p, permitted code p = true) :
    TakenBy i code c (fun n => n == 0 || n == 1) .either run where
  exec_eq := hexec
  length_iff k := by simp [hlen]
  admits_eq p := (hperm p).symm

/-- ECHO takes any body of up to 42 bytes from either port (R138). -/
theorem TakenBy.echo (c : Cmd) : TakenBy (.echo c) 0x01 c (fun n => decide (n ≤ 42)) .either runEcho where
  exec_eq _ := rfl
  length_iff n := by
    have hlen : bodyLengths 0x01 = List.range 43 := rfl
    rw [hlen, List.mem_range, decide_eq_true_iff]
    omega
  admits_eq _ := rfl

/-- Every command of a known CODE is taken by the check order, with its own lengths and permission (R132, R133). -/
theorem takenBy_of_commandOf (h : commandOf i = some (code, c)) (hknown : knownCodes.contains code = true) :
    ∃ lengthOk permit run, TakenBy i code c lengthOk permit run := by
  cases i with
  | echo =>
    cases h
    exact ⟨_, _, _, .echo _⟩
  | alloc | readLines =>
    cases h
    exact ⟨_, _, _, .of_optional (fun _ => rfl) rfl fun _ => rfl⟩
  | quota | resetPart | evict | setTime | synthSet | synthOn | synthOff | selectSource | prescale | freeze
  | linkConfig =>
    cases h
    exact ⟨_, .spiOnly, _, .of_exactly (fun _ => rfl) rfl rfl rfl⟩
  | leave =>
    cases h
    exact ⟨_, .linkOnly, _, .of_exactly (fun _ => rfl) rfl rfl rfl⟩
  | status | retire | config | stage | armAt | armIn | armOn | disarm | suspend | resume | retime | nudge | look | give
  | takeNotices | noticeConfig | claim | release | setLines | groupMode | loadPhases | setGroup | setLimits
  | triggerConfig | readTrigger | readTime | linkStatus =>
    cases h
    exact ⟨_, .either, _, .of_exactly (fun _ => rfl) rfl rfl rfl⟩
  | unknown code' c' =>
    rw [commandOf] at h
    split at h
    · cases h
    · next hunknown =>
      cases h
      exact absurd hknown hunknown
  | _ => cases h

theorem TakenBy.refused_length (h : TakenBy i code c lengthOk permit run) (ht : s.takes code c = true)
    (hl : c.body.length ∉ bodyLengths code) : exec i s = refusedNext code c .length s := by
  have hbad : lengthOk c.body.length = false := Bool.eq_false_iff.2 fun hok => hl ((h.length_iff _).1 hok)
  rw [h.exec_eq, takeCommand_taken _ _ _ ht, checked_bad_length _ _ _ _ hbad, refusedNext]

theorem TakenBy.refused_notPermitted (h : TakenBy i code c lengthOk permit run) (ht : s.takes code c = true)
    (hl : c.body.length ∈ bodyLengths code) (hp : permitted code c.src.port = false) :
    exec i s = refusedNext code c .notPermitted s := by
  have hadmits : permit.admits c.src.port = false := (h.admits_eq _).trans hp
  rw [h.exec_eq, takeCommand_taken _ _ _ ht, checked_not_permitted _ _ ((h.length_iff _).2 hl) hadmits, refusedNext]

/-- A command of a fitting length from a port with permission gets to its own checks and execution. -/
theorem TakenBy.exec_run (h : TakenBy i code c lengthOk permit run) (ht : s.takes code c = true)
    (hl : c.body.length ∈ bodyLengths code) (hp : permitted code c.src.port = true) :
    exec i s = .next ((run c.src.port c.body (during s c)).finish code c) := by
  rw [h.exec_eq, takeCommand_taken _ _ _ ht, checked_run _ _ ((h.length_iff _).2 hl) ((h.admits_eq _).trans hp)]

/-- The take of a CODE that names no command is refused whatever its length and its port (R132). -/
theorem exec_unknown (hunknown : knownCodes.contains code = false) (ht : s.takes code c = true) :
    exec (.unknown code c) s = refusedNext code c .unknown s := by
  have hexec : exec (.unknown code c) s = execUnknown code c s := rfl
  rw [hexec, execUnknown, hunknown, if_neg Bool.false_ne_true, takeCommand_taken _ _ _ ht, checked_run _ _ rfl rfl,
    refusedNext]

end

end Sys2Proof.Machine
end

section
/-!
PROOFS. The first stages of the check order, and ECHO (R132, R133, R138).
-/
namespace Sys2Proof.Proofs
open Sys2Proof.Machine

/-- Settles O6: every known CODE's take is the check order with the lengths and the permission of its row. -/
theorem codeLengthPermission : Obligations.CodeLengthPermission := by
  refine ⟨fun code c s hunknown ht => exec_unknown hunknown ht, fun i code c s hcommand hknown ht => ?_⟩
  obtain ⟨lengthOk, permit, run, htaken⟩ := takenBy_of_commandOf hcommand hknown
  exact ⟨htaken.refused_length ht, htaken.refused_notPermitted ht⟩

/-- Settles O8: a body ECHO accepts is its answer on the part with the slot emptied, and a longer one fails stage 2. -/
theorem echo : Obligations.Echo := by
  intro c s ht
  have hlength : c.body.length ∈ bodyLengths 0x01 ↔ c.body.length ≤ 42 := by
    rw [← (TakenBy.echo c).length_iff, decide_eq_true_iff]
  refine ⟨fun hshort => ?_, fun hlong => ?_⟩
  · exact (TakenBy.echo c).exec_run ht (hlength.2 hshort) rfl
  · have hbad : c.body.length ∉ bodyLengths 0x01 := fun hmem => by
      have hshort := hlength.1 hmem
      omega
    exact (TakenBy.echo c).refused_length ht hbad

end Sys2Proof.Proofs
end

section
/-!
PROOFS. What the execution of a command can do, said once: every command after its first checks is refused with nothing
changed, or leaves one of the effects listed here, with all that its checks have made sure of.
-/
namespace Sys2Proof.Machine

/-- The record b continues the record a of the same entry: owner, chain, trigger and repark are kept, its action is the
one it had or the one that was staged, and what is staged is kept or discarded (R31). -/
structure Entry.Continues (a b : Entry) : Prop where
  owner : b.owner = a.owner
  chain : b.chain = a.chain
  trigger : b.trigger = a.trigger
  repark : b.repark = a.repark
  action : b.action = a.action ∨ a.staged.action = some b.action
  staged : b.staged.action = a.staged.action ∨ b.staged.action = none

/-- What the execution of a command from a port can leave of the part. -/
inductive Effect (i : Instr) (p : Port) (s : State) : State → Prop
  | none : Effect i p s s
  | clearCause : Effect i p s { s with ctl := { s.ctl with resetCause := .none } }
  | reset (c : Cmd) (sdi : List Bool) (h : i = .resetPart c sdi) : Effect i p s (s.commandReset sdi)
  | quota (q : Port) (n : Nat) (hn : n ≤ 256) (howned : s.ownedCount q ≤ n) :
      Effect i p s { s with quotas := s.quotas.set q n }
  | alloc (e : EntryId) (hfree : s.entry e = .none) (hquota : s.ownedCount p < s.quotas.get p) :
      Effect i p s (s.setEntry e (some (Entry.initial p)))
  | retire (e : EntryId) (a : Entry) (he : s.entry e = some a) (ho : a.owner = p) : Effect i p s (s.retireEntry e a)
  | config (e : EntryId) (a : Entry) (f : EntryConfig) (he : s.entry e = some a) (ho : a.owner = p)
      (hrepark : f.repark = true → f.trigger.isSome = true) (hchain : chainOwned s p f.chain = true)
      (hidle : a.state = .idle) (hmode : s.lines.modeAdmits f.action = true)
      (haction : s.lines.claimsAction p f.action = true) (htrigger : s.lines.claimsTrigger p f.trigger = true) :
      Effect i p s (s.setEntry e (some (a.configure f)))
  | stage (e : EntryId) (a : Entry) (w : Staged) (he : s.entry e = some a) (ho : a.owner = p)
      (hmode : s.lines.modeAdmits (w.action.getD .none) = true)
      (haction : s.lines.claimsAction p (w.action.getD .none) = true) :
      Effect i p s (s.setEntry e (some { a with staged := w }))
  | move (e : EntryId) (a b : Entry) (he : s.entry e = some a) (hab : a.Continues b) : Effect i p s (s.move e b)
  | give (e : EntryId) (a : Entry) (he : s.entry e = some a) (ho : a.owner = p)
      (hquota : s.ownedCount p.other < s.quotas.get p.other) (hchain : a.chain = .none)
      (htarget : s.chainTarget e = false) (hclaims : s.lines.claimsEntry p.other a = true) :
      Effect i p s { s.setEntry e (some { a with owner := p.other }) with notices := s.notices.moveItem e p }
  | evict : Effect i p s s.clearLink.discardLinkSlots
  | leave : Effect i p s s.clearLink
  | takeKept : Effect i p s { s with notices := s.notices.afterTake p }
  | take (k : Nat) :
      Effect i p s { s with notices := (s.notices.setQueue p ((s.notices.queues.get p).drop k)).afterTake p }
  | noticeConfig (signalling consume : Bool) :
      Effect i p s { s with notices := s.notices.configure p signalling consume }
  | claim (l : BitVec 16) (k : BitVec 8) (hl : s.lines.allLines l (· != some p.other) = true)
      (hk : s.lines.allTriggers k (· != some p.other) = true) : Effect i p s { s with lines := s.lines.claim p l k }
  | release (l : BitVec 16) (k : BitVec 8) (hl : s.lines.allLines l (· == some p) = true)
      (hk : s.lines.allTriggers k (· == some p) = true)
      (hneeds : s.anyEntry (fun a => a.owner == p && a.needs l k) = false) (hparked : s.anyParked k = false) :
      Effect i p s (s.releaseClaims l k)
  | setLines (w : LineWrite) (h : s.lines.anySequence w.mask = false) :
      Effect i p s { s with lines := s.lines.write w }
  | groupMode (g : Fin 4) (m : GroupMode) (h : s.anyEntry (fun a => a.bars g m) = false) :
      Effect i p s { s with lines := s.lines.putGroup g { s.lines.groups.get g with mode := m } }
  | loadPhases (g : Fin 4) (table : Vector (BitVec 4) 8) :
      Effect i p s { s with lines := s.lines.putGroup g { s.lines.groups.get g with table := table } }
  | setGroup (g : Fin 4) (w : GroupWrite) (h : positionAllowed (s.lines.groups.get g).limits w.position = true) :
      Effect i p s { s with lines := if w.index.isSome then s.lines.putGroup g ((s.lines.groups.get g).write w)
                                     else s.lines.setGroup g ((s.lines.groups.get g).write w) }
  | setLimits (g : Fin 4) (limits : Option Limits) (h : withinLimits limits (s.lines.groups.get g).position = true) :
      Effect i p s { s with lines := s.lines.setGroup g { s.lines.groups.get g with limits := limits } }
  | triggerConfig (k : Fin 8) (edge : EdgeSelection) (mode : ParkMode) :
      Effect i p s (s.setTrigger k { s.triggers.get k with edge := edge, mode := mode })
  | readTrigger (k : Fin 8) : Effect i p s (s.setTrigger k { s.triggers.get k with count := 0 })
  | setTime (c : Cmd) (t : Word) (h : i = .setTime c) : Effect i p s (s.setTime t)
  | synthSet (w : SynthWrite) (h : w.nl = .none ∨ s.time.synth = .off) :
      Effect i p s { s with time := s.time.write w }
  | synthOn (hoff : s.time.synth = .off) (hl : s.time.l ≠ 0) :
      Effect i p s { s with time := { s.time with synth := .acquiring } }
  | synthOff (hsource : s.time.source ≠ .synth) (htoward : s.time.towardSynth = false) :
      Effect i p s { s with time := { s.time with synth := .off } }
  | select (source : ClockSource) (hnone : s.time.changeover = .none) (hsource : source ≠ s.time.source)
      (hlocked : source = .synth → s.time.synth = .locked) :
      Effect i p s { s with time := { s.time with changeover := some { target := source, kind := .requested } } }
  | prescale (k : BitVec 4) : Effect i p s { s with time := s.time.prescale k }
  | freeze (on : Bool) : Effect i p s { s with time := { s.time with freezeCommand := on } }
  | linkConfig (w : LinkSettings) (h : w.inRange) :
      Effect i p s { s with link := { s.link with pendingSettings := some w } }
  | linkStatus : Effect i p s { s with link := { s.link with lastError := .none } }

/-- The answer of an execution: a refusal, or NOT_ARMED, that changes nothing, or an OK with one of the effects. -/
def Executes (i : Instr) (p : Port) (s : State) (a : Answer) : Prop :=
  (∃ r, r ≠ .ok ∧ a = Answer.refuse r s) ∨ (a.result = .ok ∧ Effect i p s a.state)

section
variable {i : Instr} {p : Port} {s t : State} {body : List Byte}

theorem Executes.refuse {r : Result} (h : r ≠ .ok) : Executes i p s (Answer.refuse r s) := .inl ⟨r, h, rfl⟩

theorem Executes.ok (h : Effect i p s t) : Executes i p s (Answer.ok body t) := .inr ⟨rfl, h⟩

/-- A check refuses where it fails. -/
theorem Executes.guard {bad : Prop} [Decidable bad] {r : Result} {a : Answer} (h : ¬ bad → Executes i p s a)
    (hr : r ≠ .ok := by decide) : Executes i p s (if bad then Answer.refuse r s else a) := by
  split
  · exact .refuse hr
  · exact h ‹_›

theorem Executes.withBody {α : Type} {read : List Byte → Option α} {run : α → Answer}
    (h : ∀ x, read body = some x → Executes i p s (run x)) : Executes i p s (withBody read body s run) := by
  cases hb : read body with
  | none => exact withBody_none s run hb ▸ .refuse (by decide)
  | some x => exact withBody_some s run hb ▸ h x hb

theorem Executes.withOwned {e : EntryId} {run : Entry → Answer}
    (h : ∀ a, s.entry e = some a → a.owner = p → Executes i p s (run a)) :
    Executes i p s (withOwned p e s run) := by
  cases he : s.entry e with
  | none => exact withOwned_none run he ▸ .refuse (by decide)
  | some a =>
    by_cases ho : a.owner = p
    · exact withOwned_some run he ho ▸ h a he ho
    · exact withOwned_other run he ho ▸ .refuse (by decide)

/-- A record that changes in its state and left alone continues the one before, whether the staged record is kept. -/
theorem Entry.continues_state (a : Entry) (state : EntryState) (left : BitVec 16) :
    a.Continues { a with state := state, left := left } :=
  ⟨rfl, rfl, rfl, rfl, .inl rfl, .inl rfl⟩

theorem Entry.continues_disarmed (a : Entry) : a.Continues { a with state := .idle, staged := Staged.absent } :=
  ⟨rfl, rfl, rfl, rfl, .inl rfl, .inr rfl⟩

/-! ### What the argument readers make sure of -/

theorem readQuotaBody_le {q : Port} {n : Nat} (h : readQuotaBody body = some (q, n)) : n ≤ 256 := by
  unfold readQuotaBody at h
  repeat' split at h
  all_goals cases h
  assumption

theorem readConfigBody_repark {e : EntryId} {f : EntryConfig} (h : readConfigBody body = some (e, f))
    (hr : f.repark = true) : f.trigger.isSome = true := by
  unfold readConfigBody at h
  repeat' split at h
  all_goals cases h
  next hreserved =>
    obtain ⟨-, htrigger⟩ := hreserved
    exact Option.isSome_iff_ne_none.2 fun hnone => htrigger ⟨hr, hnone⟩

theorem readLinkConfigBody_inRange {w : LinkSettings} (h : readLinkConfigBody body = some w) : w.inRange := by
  unfold readLinkConfigBody at h
  repeat' split at h
  all_goals cases h
  next hrange =>
    obtain ⟨hd, hd', hg, hq, hq'⟩ := hrange
    exact ⟨hd, hd', hg, hq, hq'⟩

/-! ### The commands -/

theorem runEcho_executes : Executes i p s (runEcho p body s) := .ok .none

theorem runStatus_executes : Executes i p s (runStatus p body s) := by
  cases p with
  | spi => exact .ok .clearCause
  | link => exact .ok .none

theorem runResetPart_executes (c : Cmd) (sdi : List Bool) :
    Executes (.resetPart c sdi) p s (runResetPart sdi p body s) :=
  .inr ⟨rfl, .reset c sdi rfl⟩

theorem runQuota_executes : Executes i p s (runQuota p body s) :=
  .withBody fun ⟨q, n⟩ hbody => .guard fun howned => .ok (.quota q n (readQuotaBody_le hbody) (Nat.not_lt.1 howned))

theorem runAlloc_executes : Executes i p s (runAlloc p body s) := by
  refine .guard fun hquota => ?_
  have hallocate : ∀ e, s.entry e = none → Executes i p s (allocate p e s) := fun e he =>
    .ok (.alloc e he (Nat.not_le.1 hquota))
  split
  · exact .refuse (by decide)
  · next e hlowest _ => exact hallocate e (by simpa using List.find?_some hlowest)
  · next e _ _ => exact .guard fun he => hallocate e (by simpa using he)

theorem runRetire_executes : Executes i p s (runRetire p body s) :=
  .withBody fun e _ => .withOwned fun a he ho => .ok (.retire e a he ho)

theorem runConfig_executes : Executes i p s (runConfig p body s) := by
  refine .withBody fun ⟨e, f⟩ hbody => ?_
  dsimp only
  split
  · exact .refuse (by decide)
  · next a he =>
    refine .guard fun _ => .guard fun ho => .guard fun hchain => .guard fun hidle => .guard fun hmode =>
      .guard fun hclaims => ?_
    simp only [Bool.not_eq_true, Bool.not_eq_false', Bool.and_eq_true, ne_eq, Classical.not_not] at *
    obtain ⟨haction, htrigger⟩ := hclaims
    exact .ok (.config e a f he ho (readConfigBody_repark hbody) hchain hidle hmode haction htrigger)

theorem runStage_executes : Executes i p s (runStage p body s) :=
  .withBody fun ⟨e, w⟩ _ => .withOwned fun a he ho => .guard fun hmode => .guard fun hclaims =>
    .ok (.stage e a w he ho (by simpa using hmode) (by simpa using hclaims))

/-- An arm with late handling is refused, or it moves the entry to the list of its due (R38). -/
theorem armWithLate_executes {e : EntryId} {a b : Entry} (he : s.entry e = some a)
    (hab : ∀ state, a.Continues { b with state := state }) (target : Word) :
    Executes i p s (armWithLate e b target s) := by
  unfold armWithLate lateCommandArm
  split
  · exact .ok (.move e a _ he (hab _))
  · next r hr =>
    refine .refuse ?_
    rintro rfl
    repeat' split at hr
    all_goals cases hr

theorem runArmAt_executes : Executes i p s (runArmAt p body s) :=
  .withBody fun _ _ => .withOwned fun a he _ => .guard fun _ => .guard fun _ =>
    armWithLate_executes he (fun state => a.continues_state state a.reps) _

theorem runArmIn_executes : Executes i p s (runArmIn p body s) :=
  .withBody fun _ _ => .withOwned fun a he _ => .guard fun _ => .ok (.move _ a _ he (a.continues_state _ _))

theorem runArmOn_executes : Executes i p s (runArmOn p body s) := by
  refine .withBody fun e _ => .withOwned fun a he _ => ?_
  split
  · exact .ok (.move e a _ he (a.continues_state _ _))
  · exact .refuse (by decide)

theorem runDisarm_executes : Executes i p s (runDisarm p body s) :=
  .withBody fun e _ => .withOwned fun a he _ => .guard fun _ => .ok (.move e a _ he a.continues_disarmed)

theorem runSuspend_executes : Executes i p s (runSuspend p body s) := by
  refine .withBody fun e _ => .withOwned fun a he _ => ?_
  split
  · exact .ok (.move e a _ he (a.continues_state _ _))
  · exact .refuse (by decide)

theorem runResume_executes : Executes i p s (runResume p body s) := by
  refine .withBody fun e _ => .withOwned fun a he _ => ?_
  split
  · exact .ok (.move e a _ he (a.continues_state _ _))
  · exact .refuse (by decide)

theorem runRetime_executes : Executes i p s (runRetime p body s) := by
  refine .withBody fun _ _ => .withOwned fun a he _ => ?_
  split
  · exact .guard fun _ => armWithLate_executes he (fun state => a.continues_state state a.left) _
  · exact .refuse (by decide)

theorem runNudge_executes : Executes i p s (runNudge p body s) := by
  refine .withBody fun _ _ => .withOwned fun a he _ => ?_
  split
  · exact .guard fun _ => .guard fun _ => armWithLate_executes he (fun state => a.continues_state state a.left) _
  · exact .refuse (by decide)

theorem runLook_executes : Executes i p s (runLook p body s) := by
  refine .withBody fun e _ => ?_
  split
  · exact .ok .none
  · exact .refuse (by decide)

theorem runGive_executes : Executes i p s (runGive p body s) := by
  refine .withBody fun e _ => .withOwned fun a he ho => .guard fun hquota => .guard fun hbound => .guard fun hclaims => ?_
  simp only [Bool.or_eq_true, not_or, Bool.not_eq_true, Option.isSome_eq_false_iff, Option.isNone_iff_eq_none] at hbound
  obtain ⟨hchain, htarget⟩ := hbound
  exact .ok (.give e a he ho (Nat.not_le.1 hquota) hchain htarget (by simpa using hclaims))

theorem runEvict_executes : Executes i p s (runEvict p body s) := .withBody fun _ _ => .ok .evict

theorem runLeave_executes : Executes i p s (runLeave p body s) := .ok .leave

theorem runTake_executes : Executes i p s (runTake p body s) := by
  refine .withBody fun k _ => ?_
  split
  · exact .inr ⟨rfl, .takeKept⟩
  · exact .ok (.take k)

theorem runNoticeConfig_executes : Executes i p s (runNoticeConfig p body s) :=
  .withBody fun _ _ => .ok (.noticeConfig _ _)

theorem runClaim_executes : Executes i p s (runClaim p body s) := by
  refine .withBody fun ⟨l, k⟩ _ => ?_
  dsimp only
  split
  · next hfree =>
    obtain ⟨hl, hk⟩ := Bool.and_eq_true_iff.1 hfree
    exact .ok (.claim l k hl hk)
  · exact .refuse (by decide)

theorem runRelease_executes : Executes i p s (runRelease p body s) := by
  refine .withBody fun ⟨l, k⟩ _ => .guard fun hheld => .guard fun hneeds => .guard fun hparked => ?_
  simp only [Bool.not_eq_true, Bool.not_eq_false', Bool.and_eq_true] at hheld hneeds hparked
  obtain ⟨hl, hk⟩ := hheld
  exact .ok (.release l k hl hk hneeds hparked)

theorem runSetLines_executes : Executes i p s (runSetLines p body s) :=
  .withBody fun w _ => .guard fun hseq => .guard fun _ => .ok (.setLines w (by simpa using hseq))

theorem runGroupMode_executes : Executes i p s (runGroupMode p body s) :=
  .withBody fun ⟨g, m⟩ _ => .guard fun _ => .guard fun hbars => .ok (.groupMode g m (by simpa using hbars))

theorem runLoadPhases_executes : Executes i p s (runLoadPhases p body s) :=
  .withBody fun ⟨g, table⟩ _ => .guard fun _ => .ok (.loadPhases g table)

theorem runSetGroup_executes : Executes i p s (runSetGroup p body s) :=
  .withBody fun ⟨g, w⟩ _ => .guard fun _ => .guard fun hpos => .ok (.setGroup g w (by simpa using hpos))

theorem runSetLimits_executes : Executes i p s (runSetLimits p body s) :=
  .withBody fun ⟨g, limits⟩ _ => .guard fun _ => .guard fun hpos => .ok (.setLimits g limits (by simpa using hpos))

theorem runReadLines_executes : Executes i p s (runReadLines p body s) := by
  refine .withBody fun g _ => ?_
  cases g with
  | none => exact .ok .none
  | some g => exact .ok .none

theorem runTriggerConfig_executes : Executes i p s (runTriggerConfig p body s) := by
  refine .withBody fun ⟨k, edge, mode⟩ _ => ?_
  dsimp only
  split
  · exact .ok (.triggerConfig k edge mode)
  · exact .refuse (by decide)

theorem runReadTrigger_executes : Executes i p s (runReadTrigger p body s) := by
  refine .withBody fun k _ => .ok ?_
  split
  · exact .readTrigger k
  · exact .none

theorem runReadTime_executes : Executes i p s (runReadTime p body s) := .ok .none

theorem runSetTime_executes (c : Cmd) : Executes (.setTime c) p s (runSetTime p body s) :=
  .withBody fun t _ => .ok (.setTime c t rfl)

theorem runSynthSet_executes : Executes i p s (runSynthSet p body s) := by
  refine .withBody fun w _ => .guard fun hlocked => .ok (.synthSet w ?_)
  cases hnl : w.nl with
  | none => exact .inl rfl
  | some nl => exact .inr (by simpa [hnl] using hlocked)

theorem runSynthOn_executes : Executes i p s (runSynthOn p body s) := by
  unfold runSynthOn
  split
  · exact .guard fun hl => .ok (.synthOn ‹_› hl)
  · exact .ok .none

theorem runSynthOff_executes : Executes i p s (runSynthOff p body s) := by
  refine .guard fun hbound => ?_
  rw [not_or, Bool.not_eq_true] at hbound
  obtain ⟨hsource, htoward⟩ := hbound
  exact .ok (.synthOff hsource htoward)

theorem runSelect_executes : Executes i p s (runSelect p body s) := by
  refine .withBody fun source _ => .guard fun hnone => ?_
  split
  · exact .ok .none
  · next hsource =>
    exact .guard fun hlocked => .ok (.select source (by simpa using hnone) hsource (by simpa using hlocked))

theorem runPrescale_executes : Executes i p s (runPrescale p body s) := .withBody fun k _ => .ok (.prescale k)

theorem runFreeze_executes : Executes i p s (runFreeze p body s) := .withBody fun on _ => .ok (.freeze on)

theorem runLinkConfig_executes : Executes i p s (runLinkConfig p body s) :=
  .withBody fun w hbody => .ok (.linkConfig w (readLinkConfigBody_inRange hbody))

theorem runLinkStatus_executes : Executes i p s (runLinkStatus p body s) := .ok .linkStatus

/-! ### The take -/

/-- A command is taken by the check order, and what it runs after the first checks executes. -/
theorem exec_commandOf {code : Byte} {c : Cmd} (h : commandOf i = some (code, c)) :
    ∃ lengthOk permit run, (∀ s, exec i s = .next (takeCommand code lengthOk permit run c s)) ∧
      ∀ p body s, Executes i p s (run p body s) := by
  cases i with
  | echo => cases h; exact ⟨_, _, _, fun _ => rfl, fun _ _ _ => runEcho_executes⟩
  | status => cases h; exact ⟨_, _, _, fun _ => rfl, fun _ _ _ => runStatus_executes⟩
  | quota => cases h; exact ⟨_, _, _, fun _ => rfl, fun _ _ _ => runQuota_executes⟩
  | resetPart => cases h; exact ⟨_, _, _, fun _ => rfl, fun _ _ _ => runResetPart_executes _ _⟩
  | evict => cases h; exact ⟨_, _, _, fun _ => rfl, fun _ _ _ => runEvict_executes⟩
  | leave => cases h; exact ⟨_, _, _, fun _ => rfl, fun _ _ _ => runLeave_executes⟩
  | alloc => cases h; exact ⟨_, _, _, fun _ => rfl, fun _ _ _ => runAlloc_executes⟩
  | retire => cases h; exact ⟨_, _, _, fun _ => rfl, fun _ _ _ => runRetire_executes⟩
  | config => cases h; exact ⟨_, _, _, fun _ => rfl, fun _ _ _ => runConfig_executes⟩
  | stage => cases h; exact ⟨_, _, _, fun _ => rfl, fun _ _ _ => runStage_executes⟩
  | armAt => cases h; exact ⟨_, _, _, fun _ => rfl, fun _ _ _ => runArmAt_executes⟩
  | armIn => cases h; exact ⟨_, _, _, fun _ => rfl, fun _ _ _ => runArmIn_executes⟩
  | armOn => cases h; exact ⟨_, _, _, fun _ => rfl, fun _ _ _ => runArmOn_executes⟩
  | disarm => cases h; exact ⟨_, _, _, fun _ => rfl, fun _ _ _ => runDisarm_executes⟩
  | suspend => cases h; exact ⟨_, _, _, fun _ => rfl, fun _ _ _ => runSuspend_executes⟩
  | resume => cases h; exact ⟨_, _, _, fun _ => rfl, fun _ _ _ => runResume_executes⟩
  | retime => cases h; exact ⟨_, _, _, fun _ => rfl, fun _ _ _ => runRetime_executes⟩
  | nudge => cases h; exact ⟨_, _, _, fun _ => rfl, fun _ _ _ => runNudge_executes⟩
  | look => cases h; exact ⟨_, _, _, fun _ => rfl, fun _ _ _ => runLook_executes⟩
  | give => cases h; exact ⟨_, _, _, fun _ => rfl, fun _ _ _ => runGive_executes⟩
  | takeNotices => cases h; exact ⟨_, _, _, fun _ => rfl, fun _ _ _ => runTake_executes⟩
  | noticeConfig => cases h; exact ⟨_, _, _, fun _ => rfl, fun _ _ _ => runNoticeConfig_executes⟩
  | claim => cases h; exact ⟨_, _, _, fun _ => rfl, fun _ _ _ => runClaim_executes⟩
  | release => cases h; exact ⟨_, _, _, fun _ => rfl, fun _ _ _ => runRelease_executes⟩
  | setLines => cases h; exact ⟨_, _, _, fun _ => rfl, fun _ _ _ => runSetLines_executes⟩
  | groupMode => cases h; exact ⟨_, _, _, fun _ => rfl, fun _ _ _ => runGroupMode_executes⟩
  | loadPhases => cases h; exact ⟨_, _, _, fun _ => rfl, fun _ _ _ => runLoadPhases_executes⟩
  | setGroup => cases h; exact ⟨_, _, _, fun _ => rfl, fun _ _ _ => runSetGroup_executes⟩
  | setLimits => cases h; exact ⟨_, _, _, fun _ => rfl, fun _ _ _ => runSetLimits_executes⟩
  | readLines => cases h; exact ⟨_, _, _, fun _ => rfl, fun _ _ _ => runReadLines_executes⟩
  | triggerConfig => cases h; exact ⟨_, _, _, fun _ => rfl, fun _ _ _ => runTriggerConfig_executes⟩
  | readTrigger => cases h; exact ⟨_, _, _, fun _ => rfl, fun _ _ _ => runReadTrigger_executes⟩
  | readTime => cases h; exact ⟨_, _, _, fun _ => rfl, fun _ _ _ => runReadTime_executes⟩
  | setTime => cases h; exact ⟨_, _, _, fun _ => rfl, fun _ _ _ => runSetTime_executes _⟩
  | synthSet => cases h; exact ⟨_, _, _, fun _ => rfl, fun _ _ _ => runSynthSet_executes⟩
  | synthOn => cases h; exact ⟨_, _, _, fun _ => rfl, fun _ _ _ => runSynthOn_executes⟩
  | synthOff => cases h; exact ⟨_, _, _, fun _ => rfl, fun _ _ _ => runSynthOff_executes⟩
  | selectSource => cases h; exact ⟨_, _, _, fun _ => rfl, fun _ _ _ => runSelect_executes⟩
  | prescale => cases h; exact ⟨_, _, _, fun _ => rfl, fun _ _ _ => runPrescale_executes⟩
  | freeze => cases h; exact ⟨_, _, _, fun _ => rfl, fun _ _ _ => runFreeze_executes⟩
  | linkConfig => cases h; exact ⟨_, _, _, fun _ => rfl, fun _ _ _ => runLinkConfig_executes⟩
  | linkStatus => cases h; exact ⟨_, _, _, fun _ => rfl, fun _ _ _ => runLinkStatus_executes⟩
  | unknown code' c' =>
    rw [commandOf] at h
    split at h
    · cases h
    · next hunknown =>
      cases h
      exact ⟨_, _, _, fun _ => if_neg hunknown, fun _ _ _ => .refuse (by decide)⟩
  | _ => cases h

/-- A take that does not arise leaves the part as it is (log 2, log 3). -/
theorem exec_not_taken {code : Byte} {c : Cmd} (h : commandOf i = some (code, c)) (ht : s.takes code c = false) :
    exec i s = .next s := by
  obtain ⟨lengthOk, permit, run, hexec, -⟩ := exec_commandOf h
  rw [hexec, takeCommand_not_taken _ _ _ ht]

/-- A take ends in an answer that executes on the part with the slot emptied (R128). -/
theorem exec_taken {code : Byte} {c : Cmd} (h : commandOf i = some (code, c)) (ht : s.takes code c = true) :
    ∃ a : Answer, exec i s = .next (a.finish code c) ∧ Executes i c.src.port (during s c) a := by
  obtain ⟨lengthOk, permit, run, hexec, hrun⟩ := exec_commandOf h
  refine ⟨_, by rw [hexec, takeCommand_taken _ _ _ ht], ?_⟩
  exact .guard fun _ => .guard fun _ => hrun _ _ _

end

end Sys2Proof.Machine
end

section
/-!
PROOFS. What an event can do, said once, with all that its conditions have made sure of; and with the takes of commands,
everything that a step can do.
-/
namespace Sys2Proof.Machine

/-- What an event of the part can leave of it. -/
inductive Occurs (i : Instr) (s : State) : State → Prop
  | none : Occurs i s s
  | fire (e : EntryId) (a : Entry) (due : Word) (h : Fires s e a due) : Occurs i s (s.fireEntry e a due).settleLink
  | tick (n : Nat) (h : i = .tick n) : Occurs i s (s.cycles n)
  | triggerSample (k : Fin 8) (b : Bool) : Occurs i s (s.setTrigger k { s.triggers.get k with sample := b })
  | edge (k : Fin 8) (hrunning : s.phase = .running) : Occurs i s (s.takeEdge k)
  | lockGained (fRef : Nat) (h : s.time.canGain fRef = true) (f : TimeFlags) :
      Occurs i s (State.postTime { s with time := { s.time with synth := .locked, hold := false } } f)
  | lockLost (h : s.time.synth = .locked) (f : TimeFlags) :
      Occurs i s (State.postTime { s with time := s.time.lose.1 } f)
  | changeover (target : ClockSource) (h : s.time.completing = some target) (f : TimeFlags) :
      Occurs i s (State.postTime { s with time := s.time.complete target } f)
  | freezeSample (b : Bool) : Occurs i s { s with time := { s.time with freezeSample := b } }
  | freezePin (pin sample : Bool) : Occurs i s { s with time := { s.time with freezePin := pin, freezeSample := sample } }
  | powerOn (adr : BitVec 4) (lspd : BitVec 2) (low : Bool) (h : i = .powerOnReset adr lspd low) :
      Occurs i s { s.resetBlocks .powerOn (LinkPort.strapped adr lspd) with phase := if low then .held else .settling }
  | nresetAssert (h : i = .nresetAssert) :
      Occurs i s { s.resetBlocks .pin (LinkPort.initial s.link.address
        { d := s.link.settings.d, g := Config.gapLimit, q := Config.responseGap }) with phase := .held }
  | nresetRelease (adr : BitVec 4) (lspd : BitVec 2) (h : s.phase = .held) :
      Occurs i s { s with phase := .settling, link := LinkPort.strapped adr lspd }
  | firstLevels (level sample : Fin 8 → Bool) (pin last : Bool) :
      Occurs i s { s with
        phase := .running
        triggers := Vector.ofFn fun k => { s.triggers.get k with level := level k, sample := sample k }
        time := { s.time with freezePin := pin, freezeSample := last } }
  | selLevel (b : Bool) : Occurs i s { s with spi := { s.spi with selLow := b } }
  | selOpens (x : SpiPort) (h : s.phase = .running) : Occurs i s { s with spi := x }
  | selEnds (x : SpiPort) (h : s.spi.transaction ≠ .none ∨ s.spi.cut ≠ .none) : Occurs i s { s with spi := x }
  | commandJudged (x : SpiPort) (slot : Option CommandFrame) (h : s.spi.transaction ≠ .none) :
      Occurs i s { s with spi := x, ctl := { s.ctl with commands := s.ctl.commands.set .spi slot } }
  | fetched (x : SpiPort) (h : s.spi.transaction ≠ .none) :
      Occurs i s { s with spi := x, ctl := { s.ctl with responses := s.ctl.responses.set .spi .none } }
  | startBit (rxd : List Bool) (h : s.hears = true) :
      Occurs i s { s with link := { (s.link.hear rxd).sample false with insideChar := true } }
  | falseStart (rxd : List Bool) (h : s.hears = true) :
      Occurs i s (State.settleLink { s with link := { s.link.hear rxd with insideChar := false }.endGap })
  | gap (rxd : List Bool) (h : s.hears = true) :
      Occurs i s (State.settleLink { s with link := (s.link.hear rxd).abandon .gap })
  | character (rxd : List Bool) (data : Byte) (mark stop : Bool) (h : s.hears = true) :
      Occurs i s (State.examine { s with link := s.link.charEnds rxd } data mark stop).settleLink
  | transmissionBegin (rxd : List Bool) (h : s.hears = true) (hdue : (s.hear rxd).sendDue = true) :
      Occurs i s (s.hear rxd).beginSending
  | transmissionEnd (what : SentFrame) (chars : List LinkChar) (sent : Nat) (hrunning : s.phase = .running)
      (h : s.link.transmitter = .sending what chars sent) : Occurs i s (s.endSending what).settleLink
  | pendingInForce (hrunning : s.phase = .running) : Occurs i s s.settlePending

section
variable {i : Instr} {s t : State}

theorem State.running_iff (s : State) : s.running = true ↔ s.phase = .running := beq_iff_eq

/-- The due head is what fires (R28). -/
theorem State.fires_of_dueHead {e : EntryId} {a : Entry} {due : Word} (h : s.dueHead = some (e, a, due)) :
    Fires s e a due := by
  unfold State.dueHead at h
  split at h
  · next hactive =>
    obtain ⟨hrunning, hthawed⟩ := Bool.and_eq_true_iff.1 hactive
    repeat' split at h
    all_goals cases h
    next hlist he hdue harmed =>
      exact ⟨s.running_iff.1 hrunning, by simpa using hthawed, by simp [hlist], he, harmed, hdue⟩
  · cases h

theorem execFire_occurs (h : execFire s = .next t) : Occurs i s t := by
  unfold execFire at h
  split at h
  · next e a due hhead =>
    cases h
    exact .fire e a due (State.fires_of_dueHead hhead)
  · cases h
    exact .none

theorem execTriggerEdge_occurs {k : Fin 8} {samples : List Bool} (h : execTriggerEdge k samples s = .next t) :
    Occurs i s t := by
  unfold execTriggerEdge at h
  split at h
  · next hrunning =>
    split at h
    · cases h; exact .triggerSample k _
    · cases h; exact .edge k (s.running_iff.1 hrunning)
    · cases h; exact .none
  · cases h; exact .none

theorem execLockGained_occurs {fRef : Nat} (h : execLockGained fRef s = .next t) : Occurs i s t := by
  unfold execLockGained at h
  split at h
  · next hgain =>
    obtain ⟨-, hgain⟩ := Bool.and_eq_true_iff.1 hgain
    cases h
    exact .lockGained fRef hgain _
  · cases h; exact .none

theorem execLockLost_occurs (h : execLockLost s = .next t) : Occurs i s t := by
  unfold execLockLost at h
  split at h
  · next hlocked =>
    obtain ⟨-, hlocked⟩ := Bool.and_eq_true_iff.1 hlocked
    cases h
    exact .lockLost (beq_iff_eq.1 hlocked) _
  · cases h; exact .none

theorem execChangeoverComplete_occurs (h : execChangeoverComplete s = .next t) : Occurs i s t := by
  unfold execChangeoverComplete at h
  split at h
  · split at h
    · next target htarget =>
      cases h
      exact .changeover target htarget _
    · cases h; exact .none
  · cases h; exact .none

theorem execFreezePinChange_occurs {samples : List Bool} (h : execFreezePinChange samples s = .next t) :
    Occurs i s t := by
  unfold execFreezePinChange at h
  split at h
  · split at h
    · cases h; exact .freezeSample _
    · cases h; exact .freezePin _ _
    · cases h; exact .none
  · cases h; exact .none

theorem execNresetAssert_occurs (h : execNresetAssert s = .next t) : Occurs .nresetAssert s t := by
  unfold execNresetAssert at h
  split at h
  · cases h; exact .none
  · cases h; exact .nresetAssert rfl

theorem execNresetRelease_occurs {adr : BitVec 4} {lspd : BitVec 2} (h : execNresetRelease adr lspd s = .next t) :
    Occurs i s t := by
  unfold execNresetRelease at h
  split at h
  · cases h; exact .nresetRelease adr lspd ‹_›
  · cases h; exact .none

theorem execFirstLevelPassed_occurs {samples : List InputSample} (h : execFirstLevelPassed samples s = .next t) :
    Occurs i s t := by
  unfold execFirstLevelPassed at h
  split at h
  · cases h; exact .firstLevels _ _ _ _
  · cases h; exact .none

theorem execSelFall_occurs (h : execSelFall s = .next t) : Occurs i s t := by
  unfold execSelFall at h
  split at h
  · cases h; exact .none
  · split at h
    · next hrunning =>
      cases h
      exact .selOpens _ (s.running_iff.1 hrunning)
    · cases h; exact .selLevel true

/-- The rise of SEL ends what is on the pins, judges an open transaction by the row's kind, or follows the level. -/
theorem riseAs_occurs {kind : Option SpiKind} {sdi : List Bool} {judge : Transaction → State}
    (h : ∀ x, s.spi.transaction = some x → Occurs i s (judge x)) : Occurs i s (s.riseAs kind sdi judge) := by
  unfold State.riseAs
  split
  · next x hx =>
    split
    · exact h x hx
    · exact .none
  · unfold State.riseUnopened
    split
    · next hcut => exact .selEnds _ (.inr (Option.isSome_iff_ne_none.1 hcut))
    · exact .selLevel false

theorem judgeFetch_occurs {x : Transaction} (hx : s.spi.transaction = some x) (sdi : List Bool) :
    Occurs i s (s.judgeFetch sdi x) := by
  have hopen : s.spi.transaction ≠ none := by simp [hx]
  unfold State.judgeFetch
  dsimp only
  split
  · split
    · exact .fetched _ hopen
    · exact .selEnds _ (.inl hopen)
  · exact .selEnds _ (.inl hopen)

theorem State.hears_of_quietDuring {rxd : List Bool} (h : s.quietDuring rxd = true) : s.hears = true := by
  simp only [State.quietDuring, Bool.and_eq_true] at h
  obtain ⟨⟨hhears, -⟩, -⟩ := h
  exact hhears

theorem State.hears_of_inCharacter (h : s.inCharacter = true) : s.hears = true := (Bool.and_eq_true_iff.1 h).1

theorem execStartBit_occurs {rxd : List Bool} (h : execStartBit rxd s = .next t) : Occurs i s t := by
  unfold execStartBit at h
  dsimp only at h
  split at h
  · next hstarts =>
    simp only [Bool.and_eq_true] at hstarts
    obtain ⟨⟨⟨hquiet, -⟩, -⟩, -⟩ := hstarts
    cases h
    exact .startBit rxd (State.hears_of_quietDuring hquiet)
  · cases h; exact .none

theorem execFalseStart_occurs {rxd : List Bool} (h : execFalseStart rxd s = .next t) : Occurs i s t := by
  unfold execFalseStart at h
  split at h
  · next hfalse =>
    simp only [Bool.and_eq_true] at hfalse
    obtain ⟨⟨hinside, -⟩, -⟩ := hfalse
    cases h
    exact .falseStart rxd (State.hears_of_inCharacter hinside)
  · cases h; exact .none

theorem execGap_occurs {rxd : List Bool} (h : execGap rxd s = .next t) : Occurs i s t := by
  unfold execGap at h
  dsimp only at h
  split at h
  · next hgap =>
    simp only [Bool.and_eq_true] at hgap
    obtain ⟨⟨⟨hquiet, -⟩, -⟩, -⟩ := hgap
    cases h
    exact .gap rxd (State.hears_of_quietDuring hquiet)
  · cases h; exact .none

theorem execCharacterComplete_occurs {rxd : List Bool} (h : execCharacterComplete rxd s = .next t) : Occurs i s t := by
  unfold execCharacterComplete at h
  dsimp only at h
  split at h
  · next hchar =>
    simp only [Bool.and_eq_true] at hchar
    obtain ⟨⟨hinside, -⟩, -⟩ := hchar
    cases h
    exact .character rxd _ _ _ (State.hears_of_inCharacter hinside)
  · cases h; exact .none

theorem execTransmissionBegin_occurs {rxd : List Bool} (h : execTransmissionBegin rxd s = .next t) : Occurs i s t := by
  unfold execTransmissionBegin at h
  split at h
  · next hbegin =>
    simp only [Bool.and_eq_true] at hbegin
    obtain ⟨⟨hquiet, hdue⟩, -⟩ := hbegin
    cases h
    exact .transmissionBegin rxd (State.hears_of_quietDuring hquiet) hdue
  · cases h; exact .none

theorem execTransmissionEnd_occurs {periods : Nat} (h : execTransmissionEnd periods s = .next t) : Occurs i s t := by
  unfold execTransmissionEnd at h
  split at h
  · next hrunning =>
    split at h
    · next what chars sent hsending =>
      split at h
      · cases h
        exact .transmissionEnd what chars sent (s.running_iff.1 hrunning) hsending
      · cases h; exact .none
    · cases h; exact .none
  · cases h; exact .none

theorem execPendingSettingsInForce_occurs (h : execPendingSettingsInForce s = .next t) : Occurs i s t := by
  unfold execPendingSettingsInForce at h
  split at h
  · next hrunning =>
    cases h
    exact .pendingInForce (s.running_iff.1 hrunning)
  · cases h; exact .none

/-- An event that is no take of a command leaves what an event can leave. -/
theorem exec_occurs (hi : commandOf i = none) (h : exec i s = .next t) : Occurs i s t := by
  cases i with
  | unknown code c =>
    rw [commandOf] at hi
    split at hi
    · next hknown =>
      cases (if_pos hknown : execUnknown code c s = .next s).symm.trans h
      exact .none
    · cases hi
  | fire => exact execFire_occurs h
  | tick n => cases h; exact .tick n rfl
  | triggerEdge => exact execTriggerEdge_occurs h
  | lockGained => exact execLockGained_occurs h
  | lockLost => exact execLockLost_occurs h
  | changeoverComplete => exact execChangeoverComplete_occurs h
  | freezePinChange => exact execFreezePinChange_occurs h
  | powerOnReset adr lspd low => cases h; exact .powerOn adr lspd low rfl
  | nresetAssert => exact execNresetAssert_occurs h
  | nresetRelease => exact execNresetRelease_occurs h
  | firstLevelPassed => exact execFirstLevelPassed_occurs h
  | selFall => exact execSelFall_occurs h
  | commandTransaction sdi =>
    cases h
    exact riseAs_occurs fun x hx => .commandJudged _ _ (by simp [hx])
  | fetchTransaction sdi =>
    cases h
    exact riseAs_occurs fun x hx => judgeFetch_occurs hx sdi
  | pollTransaction | unknownKindTransaction | transactionWithoutKind =>
    cases h
    exact riseAs_occurs fun x hx => .selEnds _ (.inl (by simp [hx]))
  | characterComplete => exact execCharacterComplete_occurs h
  | gap => exact execGap_occurs h
  | transmissionBegin => exact execTransmissionBegin_occurs h
  | transmissionEnd => exact execTransmissionEnd_occurs h
  | pendingSettingsInForce => exact execPendingSettingsInForce_occurs h
  | startBit => exact execStartBit_occurs h
  | falseStart => exact execFalseStart_occurs h
  | _ => cases hi

/-- Everything that a step can do: a cycle of REFCLK on an empty queue; or, on the part with the rest of the queue,
nothing, the end of a take, or an event. -/
theorem step_cases (h : step s = .next t) :
    (s.pending = [] ∧ t = s.refCycle) ∨
      ∃ i rest s₀, s.pending = i :: rest ∧ s₀ = { s with pending := rest } ∧
        ((∃ code c a, commandOf i = some (code, c) ∧ s₀.takes code c = true ∧
            Executes i c.src.port (during s₀ c) a ∧ t = a.finish code c) ∨ Occurs i s₀ t) := by
  unfold step at h
  split at h
  · next hpending =>
    cases h
    exact .inl ⟨hpending, rfl⟩
  · next i rest hpending =>
    refine .inr ⟨i, rest, _, hpending, rfl, ?_⟩
    cases hcommand : commandOf i with
    | none => exact .inr (exec_occurs hcommand h)
    | some command =>
      obtain ⟨code, c⟩ := command
      cases htakes : State.takes { s with pending := rest } code c with
      | false =>
        rw [exec_not_taken hcommand htakes] at h
        cases h
        exact .inr .none
      | true =>
        obtain ⟨a, hexec, hexecutes⟩ := exec_taken hcommand htakes
        rw [hexec] at h
        cases h
        exact .inl ⟨code, c, a, rfl, htakes, hexecutes, rfl⟩

/-- A law is kept by every step when the parts of a take, every effect of a command, every event and a cycle of REFCLK
keep it. -/
structure Kept (P : State → Prop) : Prop where
  pending : ∀ s rest, P s → P { s with pending := rest }
  emptySlot : ∀ s p, P s → P (s.emptySlot p)
  reply : ∀ s src r, P s → P (s.reply src r)
  settleLink : ∀ s, P s → P s.settleLink
  effect : ∀ i p s t, Effect i p s t → P s → P t
  event : ∀ i s t, Occurs i s t → P s → P t
  refCycle : ∀ s, P s → P s.refCycle

theorem Kept.step {P : State → Prop} (k : Kept P) (hs : P s) (h : step s = .next t) : P t := by
  obtain ⟨-, rfl⟩ | ⟨i, rest, s₀, -, rfl, ⟨code, c, a, -, -, hexecutes, rfl⟩ | hoccurs⟩ := step_cases h
  · exact k.refCycle s hs
  · have hduring : P (during { s with pending := rest } c) := k.emptySlot _ _ (k.pending _ _ hs)
    have ha : P a.state := by
      obtain ⟨r, -, rfl⟩ | ⟨-, heffect⟩ := hexecutes
      · exact hduring
      · exact k.effect _ _ _ _ heffect hduring
    exact k.settleLink _ (k.reply _ _ _ ha)
  · exact k.event _ _ _ hoccurs (k.pending _ _ hs)

end

end Sys2Proof.Machine
end

section
/-!
PROOFS. The entry table as the laws see it: tests over all entries and owned counts said of the entries, sequences of
moves, and what a firing and an edge do in terms of them.
-/
namespace Sys2Proof.Machine

/-! ### All the entries -/

theorem toList_eq_map_finRange {α : Type} {n : Nat} (v : Vector α n) : v.toList = (List.finRange n).map v.get := by
  have hv : v = Vector.ofFn v.get := vector_ext fun i => (get_ofFn _ i).symm
  have hlist : (List.finRange n).map v.get = List.ofFn v.get := List.map_ofFn
  rw [hlist, ← Vector.toList_ofFn, ← hv]

theorem any_entries_iff (s : State) (f : Option Entry → Bool) :
    s.entries.toList.any f = true ↔ ∃ e, f (s.entry e) = true := by
  simp [toList_eq_map_finRange, State.entry]

theorem State.anyEntry_iff (s : State) (test : Entry → Bool) :
    s.anyEntry test = true ↔ ∃ e a, s.entry e = some a ∧ test a = true := by
  refine (any_entries_iff s _).trans (exists_congr fun e => ?_)
  cases s.entry e <;> simp

theorem State.chainTarget_iff (s : State) (e : EntryId) :
    s.chainTarget e = true ↔ ∃ x b, s.entry x = some b ∧ b.chain = some e := by
  refine (any_entries_iff s _).trans (exists_congr fun x => ?_)
  cases s.entry x <;> simp

theorem State.ownedCount_eq (s : State) (p : Port) :
    s.ownedCount p = (List.finRange 256).countP fun e => ownedBy p (s.entry e) := by
  rw [State.ownedCount, toList_eq_map_finRange, List.countP_map]
  rfl

/-- A port that owns no entry it did not own before owns no more. -/
theorem State.ownedCount_le {s t : State} {p : Port}
    (h : ∀ e, ownedBy p (t.entry e) = true → ownedBy p (s.entry e) = true) : t.ownedCount p ≤ s.ownedCount p := by
  rw [State.ownedCount_eq, State.ownedCount_eq]
  exact List.countP_mono_left fun e _ => h e

theorem State.ownedCount_setEntry_le (s : State) (e : EntryId) (a : Option Entry) (p : Port) :
    (s.setEntry e a).ownedCount p ≤ s.ownedCount p + 1 := by
  have hle : e.val < s.entries.toList.length := by simp
  rw [State.ownedCount, State.ownedCount, State.setEntry_entries, Vector.toList_set, List.countP_set hle]
  split <;> split <;> omega

theorem ownedBy_some (p : Port) (a : Entry) : ownedBy p (some a) = true ↔ a.owner = p := by simp [ownedBy]

/-! ### Continued tables -/

theorem Entry.Continues.refl (a : Entry) : a.Continues a := ⟨rfl, rfl, rfl, rfl, .inl rfl, .inl rfl⟩

theorem Entry.Continues.trans {a b c : Entry} (hab : a.Continues b) (hbc : b.Continues c) : a.Continues c where
  owner := hbc.owner.trans hab.owner
  chain := hbc.chain.trans hab.chain
  trigger := hbc.trigger.trans hab.trigger
  repark := hbc.repark.trans hab.repark
  action := by
    obtain hb | hb := hbc.action
    · simpa [hb] using hab.action
    · obtain ha | ha := hab.staged <;> simp_all
  staged := by
    obtain hb | hb := hbc.staged
    · simpa [hb] using hab.staged
    · exact .inr hb

/-- The same entries are FREE in both tables, and each record of the second continues that of the first. -/
def State.Continues (s t : State) : Prop := ∀ e, Option.Rel Entry.Continues (s.entry e) (t.entry e)

theorem State.Continues.of_entries {s t : State} (h : t.entries = s.entries) : s.Continues t := by
  intro e
  rw [State.entry, State.entry, h]
  cases s.entries.get e with
  | none => exact .none
  | some a => exact .some (Entry.Continues.refl a)

theorem State.Continues.trans {s t u : State} (hst : s.Continues t) (htu : t.Continues u) : s.Continues u := by
  intro e
  have h := hst e
  have h' := htu e
  generalize s.entry e = x at h
  generalize t.entry e = y at h h'
  generalize u.entry e = z at h'
  cases h with
  | none => exact h'
  | some hab =>
    cases h' with
    | some hbc => exact .some (hab.trans hbc)

/-- A record of the later table continues one of the earlier. -/
theorem State.Continues.of_some {s t : State} (h : s.Continues t) {e : EntryId} {b : Entry} (hb : t.entry e = some b) :
    ∃ a, s.entry e = some a ∧ a.Continues b := by
  have he := h e
  rw [hb] at he
  cases hs : s.entry e with
  | none => rw [hs] at he; cases he
  | some a =>
    rw [hs] at he
    cases he with
    | some hab => exact ⟨a, rfl, hab⟩

theorem State.Continues.ownedBy_eq {s t : State} (h : s.Continues t) (p : Port) (e : EntryId) :
    ownedBy p (t.entry e) = ownedBy p (s.entry e) := by
  have he := h e
  generalize s.entry e = x at he
  generalize t.entry e = y at he
  cases he with
  | none => rfl
  | some hab => rw [ownedBy, ownedBy, hab.owner]

theorem State.Continues.move {s : State} {e : EntryId} {a b : Entry} (he : s.entry e = some a) (hab : a.Continues b) :
    s.Continues (s.move e b) := by
  intro x
  rw [State.move_entry]
  split
  · next hx => rw [hx, he]; exact .some hab
  · exact State.Continues.of_entries rfl x

theorem Entry.shift_continues (a : Entry) (shift : Word) : a.Continues (a.shift shift) := by
  unfold Entry.shift
  split
  · exact ⟨rfl, rfl, rfl, rfl, .inl rfl, .inl rfl⟩
  · exact Entry.Continues.refl a

theorem State.Continues.setTime (s : State) (t : Word) : s.Continues (s.setTime t) := by
  intro e
  have he : (s.setTime t).entry e = (s.entry e).map fun a => a.shift (t - s.time.count) := get_map _ _ _
  rw [he]
  cases s.entry e with
  | none => exact .none
  | some a => exact .some (a.shift_continues _)

/-! ### Moves -/

/-- The second part comes from the first by moving allocated entries, each to a record that continues its own. -/
inductive Moves (s : State) : State → Prop
  | refl : Moves s s
  | move {t : State} {e : EntryId} {a b : Entry} (h : Moves s t) (he : t.entry e = some a) (hab : a.Continues b) :
      Moves s (t.move e b)

/-- What a move keeps, moves keep. -/
theorem Moves.keeps {P : State → Prop} {s t : State} (h : Moves s t) (hs : P s)
    (hmove : ∀ u e a b, u.entry e = some a → a.Continues b → P u → P (u.move e b)) : P t := by
  induction h with
  | refl => exact hs
  | move h he hab ih => exact hmove _ _ _ _ he hab ih

theorem Moves.continues {s t : State} (h : Moves s t) : s.Continues t :=
  h.keeps (State.Continues.of_entries rfl) fun _ _ _ _ he hab hu => hu.trans (.move he hab)

/-- Moves touch the entries, the lists and the record of past dues alone. -/
theorem Moves.frame {s t : State} (h : Moves s t) :
    t = { s with entries := t.entries, dueList := t.dueList, armedPast := t.armedPast, triggers := t.triggers } := by
  refine h.keeps (P := fun u => u =
    { s with entries := u.entries, dueList := u.dueList, armedPast := u.armedPast, triggers := u.triggers })
    rfl fun u e a b _ _ hu => ?_
  exact (State.move_frame u e b).trans (by rw [hu])

theorem Moves.trans {s t u : State} (hst : Moves s t) (htu : Moves t u) : Moves s u :=
  htu.keeps hst fun _ _ _ _ he hab h => .move h he hab

theorem Entry.stage3_continues (a : Entry) (limit : Bool) (due now : Word) :
    a.Continues (a.stage3 limit due now).record := by
  obtain ⟨state, left, h⟩ := a.stage3_record limit due now
  rw [h]
  refine ⟨rfl, rfl, rfl, rfl, ?_, .inr rfl⟩
  cases ha : a.staged.action with
  | none => exact .inl rfl
  | some x => exact .inr rfl

/-- The four stages of a firing deliver the action and move entries (R31, R36). -/
theorem State.afterStage4_moves {s : State} {e : EntryId} {a : Entry} (he : s.entry e = some a) (due : Word) :
    Moves { s with lines := (s.lines.deliver a.action).2 } (s.afterStage4 e a due).2 := by
  have h3 : Moves { s with lines := (s.lines.deliver a.action).2 } (s.afterStage3 e a due) :=
    .move .refl he (a.stage3_continues _ _ _)
  obtain ⟨flags, h⟩ | ⟨x, b, due', flags, -, hb, -, -, h⟩ :=
    (s.afterStage3 e a due).stage4_cases (s.firedStage3 a due).record.chain due
  · rw [State.afterStage4, h]
    exact h3
  · rw [State.afterStage4, h]
    exact .move h3 hb (b.continues_state (.armed due') b.reps)

/-- A firing moves entries and may post a notice. -/
theorem State.fireEntry_moves {s : State} {e : EntryId} {a : Entry} (he : s.entry e = some a) (due : Word) :
    ∃ t, Moves { s with lines := (s.lines.deliver a.action).2 } t ∧
      (s.fireEntry e a due = t ∨ ∃ flags, s.fireEntry e a due = t.post a.owner e a.tag flags due) := by
  refine ⟨_, State.afterStage4_moves he due, ?_⟩
  rw [State.fireEntry_eq]
  split
  · exact .inr ⟨_, rfl⟩
  · exact .inl rfl

theorem State.edgeArm_moves (s : State) (capture : Word) (e : EntryId) : Moves s (s.edgeArm capture e) := by
  unfold State.edgeArm
  split
  · next a he => exact .move .refl he (a.continues_state _ _)
  · exact .refl

theorem foldl_edgeArm_moves (s : State) (capture : Word) (l : List EntryId) :
    Moves s (l.foldl (fun s' e => s'.edgeArm capture e) s) := by
  induction l generalizing s with
  | nil => exact .refl
  | cons e l ih => exact (s.edgeArm_moves capture e).trans (ih _)

/-- The arms of an accepted edge are moves (R80, R81). -/
theorem State.edgeArms_moves (s : State) (k : Fin 8) (capture : Word) : Moves s (s.edgeArms k capture) := by
  unfold State.edgeArms
  split
  · split
    · exact .refl
    · exact s.edgeArm_moves _ _
  · exact foldl_edgeArm_moves _ _ _

/-- An edge changes its trigger, but for the park list, and then moves entries (R73, R74). -/
theorem State.takeEdge_moves (s : State) (k : Fin 8) :
    ∃ r : Trigger, r.park = (s.triggers.get k).park ∧ Moves (s.setTrigger k r) (s.takeEdge k) := by
  unfold State.takeEdge
  split
  · exact ⟨(s.triggers.get k).accepted s.time.count, rfl, State.edgeArms_moves _ _ _⟩
  · exact ⟨(s.triggers.get k).flip, rfl, .refl⟩

/-! ### Cycles and samples -/

/-- A cycle of REFCLK leaves the entry table alone. -/
theorem State.refCycle_entries (s : State) : s.refCycle.entries = s.entries := by rw [State.refCycle_frame]

theorem State.examine_frame (s : State) (data : Byte) (mark stop : Bool) :
    s.examine data mark stop =
      { s with ctl := { s.ctl with commands := (s.examine data mark stop).ctl.commands }
               link := (s.examine data mark stop).link } := by
  unfold State.examine State.dataChar State.judgeLink
  repeat' split
  all_goals rfl

end Sys2Proof.Machine
end

section
/-!
PROOFS. The entry laws: quotas (R11) and chains (R6, R7) are kept by every step.
-/
namespace Sys2Proof.Machine

/-- The quota law and the chain law together. -/
def EntryLaws (s : State) : Prop := QuotaLaw s ∧ ChainLaw s

section
variable {i : Instr} {p : Port} {s t : State}

theorem EntryLaws.of_continues (hs : EntryLaws s) (h : s.Continues t) (hq : t.quotas = s.quotas) : EntryLaws t := by
  obtain ⟨hquota, hchain⟩ := hs
  refine ⟨fun p => ?_, fun e b hb => ?_⟩
  · have hcount : t.ownedCount p ≤ s.ownedCount p := State.ownedCount_le fun e he => h.ownedBy_eq p e ▸ he
    obtain ⟨hle, hmax⟩ := hquota p
    rw [hq]
    exact ⟨Nat.le_trans hcount hle, hmax⟩
  · obtain ⟨a, ha, hab⟩ := h.of_some hb
    obtain ⟨htarget, hrepark⟩ := hchain e a ha
    rw [hab.owner, hab.chain, hab.repark, hab.trigger]
    exact ⟨fun x hx => h.ownedBy_eq _ x ▸ htarget x hx, hrepark⟩

theorem EntryLaws.of_entries (hs : EntryLaws s) (he : t.entries = s.entries) (hq : t.quotas = s.quotas) : EntryLaws t :=
  hs.of_continues (.of_entries he) hq

/-- A table with no entry allocated meets the laws under the reset quotas. -/
theorem EntryLaws.of_free (h : ∀ e, t.entry e = none) (hq : t.quotas = ⟨256, 64⟩) : EntryLaws t := by
  refine ⟨fun p => ?_, fun e a ha => by rw [h] at ha; cases ha⟩
  have hzero : t.ownedCount p = 0 := by simp [State.ownedCount_eq, h, ownedBy]
  cases p <;> simp [hzero, hq, PerPort.get]

/-- Every reset leaves the table with every entry FREE (R23). -/
theorem State.entry_resetBlocks (s : State) (cause : ResetCause) (link : LinkPort) (e : EntryId) :
    (s.resetBlocks cause link).entry e = none := by
  simp [State.entry, State.resetBlocks]

theorem State.entry_commandReset (s : State) (sdi : List Bool) (e : EntryId) : (s.commandReset sdi).entry e = none :=
  s.entry_resetBlocks .command { LinkPort.initial s.link.address s.link.settings with divider := s.link.divider } e

/-- What an event leaves of the table: records that continue and the same quotas, or the reset values. -/
theorem Occurs.table (h : Occurs i s t) :
    (s.Continues t ∧ t.quotas = s.quotas) ∨ ((∀ e, t.entry e = .none) ∧ t.quotas = ⟨256, 64⟩) := by
  cases h with
  | fire e a due h =>
    obtain ⟨u, hmoves, hu⟩ := State.fireEntry_moves h.record due
    have hquotas : (s.fireEntry e a due).quotas = s.quotas := by rw [State.fireEntry_frame]
    have hentries : (s.fireEntry e a due).settleLink.entries = u.entries := by
      obtain hu | ⟨flags, hu⟩ := hu <;> simp [hu]
    exact .inl ⟨hmoves.continues.trans (.of_entries hentries), by simp [hquotas]⟩
  | tick n => exact .inl ⟨.of_entries (by rw [State.cycles_frame]), by rw [State.cycles_frame]⟩
  | edge k =>
    obtain ⟨r, -, hmoves⟩ := s.takeEdge_moves k
    exact .inl ⟨hmoves.continues, by rw [hmoves.frame]; rfl⟩
  | powerOn | nresetAssert => exact .inr ⟨s.entry_resetBlocks .pin s.link, rfl⟩
  | falseStart | gap | transmissionEnd =>
    exact .inl ⟨.of_entries (State.settleLink_entries _), State.settleLink_quotas _⟩
  | character rxd data mark stop =>
    refine .inl ⟨.of_entries ?_, ?_⟩
    · rw [State.settleLink_entries, State.examine_frame]
    · rw [State.settleLink_quotas, State.examine_frame]
  | transmissionBegin rxd => exact .inl ⟨.of_entries (by rw [State.beginSending_frame]; rfl),
      by rw [State.beginSending_frame]; rfl⟩
  | pendingInForce => exact .inl ⟨.of_entries (by rw [State.settlePending_frame]), by rw [State.settlePending_frame]⟩
  | _ => exact .inl ⟨.of_entries rfl, rfl⟩

theorem chainOwned_iff {chain : Option EntryId} :
    chainOwned s p chain = true ↔ ∀ x, chain = some x → ownedBy p (s.entry x) = true := by
  cases chain <;> simp [chainOwned]

/-- A record written in place of another of the same owner leaves every entry to its owner. -/
theorem State.ownedBy_setEntry {e : EntryId} {a b : Entry} (he : s.entry e = some a) (ho : b.owner = a.owner) (q : Port)
    (x : EntryId) : ownedBy q ((s.setEntry e (some b)).entry x) = ownedBy q (s.entry x) := by
  rw [State.entry_setEntry]
  split
  · next hx => rw [hx, he, ownedBy, ownedBy, ho]
  · rfl

/-- A record written in place of another of the same owner keeps the laws, if it meets them itself. -/
theorem EntryLaws.setEntry {e : EntryId} {a b : Entry} (hs : EntryLaws s) (he : s.entry e = some a)
    (ho : b.owner = a.owner) (hchain : ∀ x, b.chain = some x → ownedBy b.owner (s.entry x) = true)
    (hrepark : b.repark = true → b.trigger.isSome = true) : EntryLaws (s.setEntry e (some b)) := by
  have howned := State.ownedBy_setEntry he ho
  obtain ⟨hquota, hchains⟩ := hs
  refine ⟨fun q => ?_, fun x c hc => ?_⟩
  · obtain ⟨hle, hmax⟩ := hquota q
    exact ⟨Nat.le_trans (State.ownedCount_le fun x hx => howned q x ▸ hx) hle, hmax⟩
  · simp only [howned]
    rw [State.entry_setEntry] at hc
    split at hc
    · cases hc
      exact ⟨hchain, hrepark⟩
    · exact hchains x c hc

/-- ALLOC makes an entry of its port, which had room for it, with no chain; no chain named it. -/
theorem EntryLaws.alloc {e : EntryId} (hs : EntryLaws s) (hfree : s.entry e = none)
    (hroom : s.ownedCount p < s.quotas.get p) : EntryLaws (s.setEntry e (some (Entry.initial p))) := by
  obtain ⟨hquota, hchain⟩ := hs
  refine ⟨fun q => ?_, fun x b hb => ?_⟩
  · obtain ⟨hle, hmax⟩ := hquota q
    refine ⟨?_, hmax⟩
    by_cases hq : q = p
    · subst hq
      exact Nat.le_trans (s.ownedCount_setEntry_le e _ q) hroom
    · refine Nat.le_trans (State.ownedCount_le fun x hx => ?_) hle
      rw [State.entry_setEntry] at hx
      split at hx
      · exact absurd ((ownedBy_some _ _).1 hx).symm hq
      · exact hx
  · rw [State.entry_setEntry] at hb
    split at hb
    · cases hb
      exact ⟨fun _ hy => (by cases hy), fun hr => (by cases hr)⟩
    · obtain ⟨htarget, hrepark⟩ := hchain x b hb
      refine ⟨fun y hy => ?_, hrepark⟩
      have howned := htarget y hy
      have hy : y ≠ e := by
        rintro rfl
        simp [hfree, ownedBy] at howned
      rw [State.entry_setEntry, if_neg hy]
      exact howned

/-- GIVE hands an entry that no chain binds to a port that has room for it. -/
theorem EntryLaws.give {e : EntryId} {a : Entry} (hs : EntryLaws s) (he : s.entry e = some a)
    (hroom : s.ownedCount p.other < s.quotas.get p.other) (hchain : a.chain = none)
    (htarget : s.chainTarget e = false) : EntryLaws (s.setEntry e (some { a with owner := p.other })) := by
  obtain ⟨hquota, hchains⟩ := hs
  refine ⟨fun q => ?_, fun x b hb => ?_⟩
  · obtain ⟨hle, hmax⟩ := hquota q
    refine ⟨?_, hmax⟩
    by_cases hq : q = p.other
    · subst hq
      exact Nat.le_trans (s.ownedCount_setEntry_le e _ _) hroom
    · refine Nat.le_trans (State.ownedCount_le fun x hx => ?_) hle
      rw [State.entry_setEntry] at hx
      split at hx
      · exact absurd ((ownedBy_some _ _).1 hx).symm hq
      · exact hx
  · rw [State.entry_setEntry] at hb
    split at hb
    · cases hb
      exact ⟨fun y hy => by simp [hchain] at hy, (hchains e a he).2⟩
    · obtain ⟨hb', hrepark⟩ := hchains x b hb
      refine ⟨fun y hy => ?_, hrepark⟩
      have hye : y ≠ e := by
        rintro rfl
        exact Bool.eq_false_iff.1 htarget ((s.chainTarget_iff y).2 ⟨x, b, hb, hy⟩)
      rw [State.entry_setEntry, if_neg hye]
      exact hb' y hy

/-- The table after RETIRE: the entry is FREE, and no chain of its owner names it (R17). -/
theorem State.entry_retireEntry (s : State) (e x : EntryId) (a : Entry) :
    (s.retireEntry e a).entry x =
      if x = e then none else (s.entry x).map fun b => if b.owner = a.owner then b.unchain e else b := by
  simp only [State.entry, State.retireEntry, get_set, get_map, Fin.ext_iff, State.unlist_entries]

theorem Entry.unchain_owner (e : EntryId) (a : Entry) : (a.unchain e).owner = a.owner := by
  unfold Entry.unchain
  split <;> rfl

theorem Entry.unchain_chain {e x : EntryId} {a : Entry} (h : (a.unchain e).chain = some x) : a.chain = some x ∧ x ≠ e := by
  unfold Entry.unchain at h
  split at h
  · cases h
  · next hne =>
    refine ⟨h, ?_⟩
    rintro rfl
    exact hne h

theorem Entry.unchain_repark (e : EntryId) (a : Entry) :
    (a.unchain e).repark = a.repark ∧ (a.unchain e).trigger = a.trigger := by
  unfold Entry.unchain
  split <;> exact ⟨rfl, rfl⟩

/-- RETIRE leaves every other entry to its owner. -/
theorem State.ownedBy_retireEntry {e x : EntryId} (a : Entry) (q : Port) (hx : x ≠ e) :
    ownedBy q ((s.retireEntry e a).entry x) = ownedBy q (s.entry x) := by
  rw [State.entry_retireEntry, if_neg hx]
  cases s.entry x with
  | none => rfl
  | some b =>
    simp only [Option.map_some, ownedBy]
    split <;> simp [Entry.unchain_owner]

theorem EntryLaws.retire {e : EntryId} {a : Entry} (hs : EntryLaws s) (he : s.entry e = some a) :
    EntryLaws (s.retireEntry e a) := by
  have howned := fun q x hx => State.ownedBy_retireEntry (s := s) a q (e := e) (x := x) hx
  obtain ⟨hquota, hchain⟩ := hs
  refine ⟨fun q => ?_, fun x c hc => ?_⟩
  · obtain ⟨hle, hmax⟩ := hquota q
    refine ⟨Nat.le_trans (State.ownedCount_le fun x hx => ?_) hle, hmax⟩
    by_cases hxe : x = e
    · rw [State.entry_retireEntry, if_pos hxe] at hx
      cases hx
    · exact howned q x hxe ▸ hx
  · rw [State.entry_retireEntry] at hc
    split at hc
    · cases hc
    · obtain ⟨b, hb, hbc⟩ := Option.map_eq_some_iff.1 hc
      obtain ⟨htarget, hrepark⟩ := hchain x b hb
      split at hbc
      · subst hbc
        obtain ⟨hr, ht⟩ := b.unchain_repark e
        rw [Entry.unchain_owner, hr, ht]
        refine ⟨fun y hy => ?_, hrepark⟩
        obtain ⟨hy, hye⟩ := Entry.unchain_chain hy
        exact howned _ y hye ▸ htarget y hy
      · next hother =>
        subst hbc
        refine ⟨fun y hy => ?_, hrepark⟩
        have hye : y ≠ e := by
          rintro rfl
          have := htarget y hy
          rw [he, ownedBy_some] at this
          exact hother this.symm
        exact howned _ y hye ▸ htarget y hy

/-- EVICT and LEAVE leave the entries that SPI owns as they were (R20). -/
theorem State.entry_clearLink (s : State) (e : EntryId) :
    s.clearLink.entry e = if ownedBy .link (s.entry e) then none else s.entry e :=
  get_map _ _ _

theorem EntryLaws.clearLink (hs : EntryLaws s) : EntryLaws s.clearLink := by
  obtain ⟨hquota, hchain⟩ := hs
  refine ⟨fun q => ?_, fun x b hb => ?_⟩
  · obtain ⟨hle, hmax⟩ := hquota q
    refine ⟨Nat.le_trans (State.ownedCount_le fun x hx => ?_) hle, hmax⟩
    rw [State.entry_clearLink] at hx
    split at hx
    · cases hx
    · exact hx
  · rw [State.entry_clearLink] at hb
    split at hb
    · cases hb
    · next hspi =>
      obtain ⟨htarget, hrepark⟩ := hchain x b hb
      refine ⟨fun y hy => ?_, hrepark⟩
      have howned := htarget y hy
      have hnot : ¬ ownedBy .link (s.entry y) = true := by
        intro hlink
        obtain ⟨c, hc, hco⟩ := (ownedBy_iff _ _).1 hlink
        rw [hc, ownedBy_some, hco] at howned
        rw [hb, ownedBy_some] at hspi
        exact hspi howned.symm
      rw [State.entry_clearLink, if_neg hnot]
      exact howned

theorem Effect.keeps_entryLaws (h : Effect i p s t) (hs : EntryLaws s) : EntryLaws t := by
  cases h with
  | reset c sdi => exact .of_free (s.entry_commandReset sdi) rfl
  | quota q n hn howned =>
    obtain ⟨hquota, hchain⟩ := hs
    refine ⟨fun q' => ?_, hchain⟩
    by_cases hq : q' = q
    · subst hq
      rw [PerPort.get_set_self]
      exact ⟨howned, hn⟩
    · obtain rfl := (Port.ne_iff _ _).1 hq
      rw [PerPort.get_set_other]
      exact hquota _
  | alloc e hfree hroom => exact hs.alloc hfree hroom
  | retire e a he => exact hs.retire he
  | config e a f he ho hrepark hchain =>
    exact hs.setEntry he rfl (fun x hx => ho ▸ chainOwned_iff.1 hchain x hx) hrepark
  | stage e a w he => exact hs.setEntry he rfl (hs.2 e a he).1 (hs.2 e a he).2
  | move e a b he hab => exact hs.of_continues (.move he hab) (by rw [State.move_frame])
  | give e a he ho hroom hchain htarget => exact (hs.give he hroom hchain htarget).of_entries rfl rfl
  | evict => exact hs.clearLink.of_entries rfl rfl
  | leave => exact hs.clearLink
  | release l k => exact hs.of_entries (s.releaseClaims_entries l k) (s.releaseClaims_quotas l k)
  | setTime c t => exact hs.of_continues (.setTime s t) rfl
  | _ => exact hs.of_entries rfl rfl

/-- The entry laws are kept by every step. -/
theorem entryLaws_kept : Kept EntryLaws where
  pending _ _ h := h.of_entries rfl rfl
  emptySlot _ _ h := h.of_entries rfl rfl
  reply s src r h := by cases src <;> exact h.of_entries rfl rfl
  settleLink s h := h.of_entries s.settleLink_entries s.settleLink_quotas
  effect _ _ _ _ heffect h := heffect.keeps_entryLaws h
  event i s t hoccurs h := by
    obtain ⟨hcontinues, hq⟩ | ⟨hfree, hq⟩ := hoccurs.table
    · exact h.of_continues hcontinues hq
    · exact .of_free hfree hq
  refCycle s h := h.of_entries s.refCycle_entries (by rw [State.refCycle_frame])

end

end Sys2Proof.Machine

namespace Sys2Proof.Proofs
open Sys2Proof.Machine

/-- Settles O55: the two laws together are kept by every effect, every event and the clock. -/
theorem entryLawsKept : Obligations.EntryLawsKept :=
  fun _ _ hquota hchain h => entryLaws_kept.step ⟨hquota, hchain⟩ h

end Sys2Proof.Proofs
end

section
/-!
PROOFS. The laws of the time base (R107 to R110, R118), and what moves the time count (R117).
-/
namespace Sys2Proof.Machine

section
variable {i : Instr} {p : Port} {s t : State}

/-! ### What leaves the time base alone -/

@[simp] theorem State.move_time (s : State) (e : EntryId) (a : Entry) : (s.move e a).time = s.time := by
  rw [State.move_frame]

@[simp] theorem State.clearLink_time (s : State) : s.clearLink.time = s.time := by
  simp [State.clearLink, State.retireLink]

@[simp] theorem State.fireEntry_time (s : State) (e : EntryId) (a : Entry) (due : Word) :
    (s.fireEntry e a due).time = s.time := by
  rw [State.fireEntry_frame]

@[simp] theorem State.takeEdge_time (s : State) (k : Fin 8) : (s.takeEdge k).time = s.time := by
  obtain ⟨r, -, hmoves⟩ := s.takeEdge_moves k
  rw [hmoves.frame]
  rfl

@[simp] theorem State.beginSending_time (s : State) : s.beginSending.time = s.time := by rw [State.beginSending_frame]

@[simp] theorem State.settlePending_time (s : State) : s.settlePending.time = s.time := by
  rw [State.settlePending_frame]

@[simp] theorem State.examine_time (s : State) (data : Byte) (mark stop : Bool) :
    (s.examine data mark stop).time = s.time := by
  rw [State.examine_frame]

/-- What a command leaves of the time base: a change that only a command of the time base makes, RESET_PART, or nothing. -/
inductive TimeEffect (i : Instr) (b : TimeBase) : TimeBase → Prop
  | kept : TimeEffect i b b
  | reset (c : Cmd) (sdi : List Bool) (h : i = .resetPart c sdi) :
      TimeEffect i b (TimeBase.initial b.freezePin b.freezeSample)
  | setTime (c : Cmd) (t : Word) (h : i = .setTime c) : TimeEffect i b { b with count := t }
  | synthSet (w : SynthWrite) (h : w.nl = none ∨ b.synth = .off) : TimeEffect i b (b.write w)
  | synthOn (hoff : b.synth = .off) (hl : b.l ≠ 0) : TimeEffect i b { b with synth := .acquiring }
  | synthOff (hsource : b.source ≠ .synth) (htoward : b.towardSynth = false) :
      TimeEffect i b { b with synth := .off }
  | select (source : ClockSource) (hnone : b.changeover = none) (hsource : source ≠ b.source)
      (hlocked : source = .synth → b.synth = .locked) :
      TimeEffect i b { b with changeover := some { target := source, kind := .requested } }
  | prescale (k : BitVec 4) : TimeEffect i b (b.prescale k)
  | freeze (on : Bool) : TimeEffect i b { b with freezeCommand := on }

theorem Effect.time (h : Effect i p s t) : TimeEffect i s.time t.time := by
  cases h with
  | reset c sdi hi => exact .reset c sdi hi
  | move e a b => exact State.move_time s e b ▸ .kept
  | evict | leave => exact State.clearLink_time s ▸ .kept
  | release l k => exact State.releaseClaims_time s l k ▸ .kept
  | setTime c t hi => exact .setTime c t hi
  | synthSet w hw => exact .synthSet w hw
  | synthOn hoff hl => exact .synthOn hoff hl
  | synthOff hsource htoward => exact .synthOff hsource htoward
  | select source hnone hsource hlocked => exact .select source hnone hsource hlocked
  | prescale k => exact .prescale k
  | freeze on => exact .freeze on
  | _ => exact .kept

/-! ### The laws, change by change -/

theorem timeLaw_initial (pin sample : Bool) : TimeLaw (TimeBase.initial pin sample) where
  runs h := by cases h
  range h := absurd rfl h
  towardSynth _ h := by cases h
  towardRef _ h := by cases h
  held h := by cases h
  prescaler := Nat.two_pow_pos 0

variable {b : TimeBase}

theorem TimeBase.towardSynth_iff (b : TimeBase) :
    b.towardSynth = true ↔ ∃ kind, b.changeover = some ⟨.synth, kind⟩ := by
  unfold TimeBase.towardSynth
  cases b.changeover with
  | none => simp
  | some c =>
    obtain ⟨target, kind⟩ := c
    cases target <;> simp

theorem TimeLaw.prescale (h : TimeLaw b) (k : BitVec 4) : TimeLaw (b.prescale k) := by
  unfold TimeBase.prescale
  split
  · exact ⟨h.runs, h.range, h.towardSynth, h.towardRef, h.held, h.prescaler⟩
  · exact ⟨h.runs, h.range, h.towardSynth, h.towardRef, h.held, Nat.two_pow_pos _⟩

theorem TimeEffect.keeps {b' : TimeBase} (heffect : TimeEffect i b b') (h : TimeLaw b) : TimeLaw b' := by
  cases heffect with
  | kept => exact h
  | reset => exact timeLaw_initial _ _
  | setTime | freeze => exact ⟨h.runs, h.range, h.towardSynth, h.towardRef, h.held, h.prescaler⟩
  | synthSet w hw =>
    refine ⟨h.runs, fun hon => ?_, h.towardSynth, h.towardRef, h.held, h.prescaler⟩
    obtain hnl | hoff := hw
    · have hl : (b.write w).l = b.l := by simp [TimeBase.write, hnl]
      rw [hl]
      exact h.range hon
    · exact absurd hoff hon
  | synthOn hoff hl =>
    have hon : ∀ c, b.changeover = some c → c.target = .synth → False := fun c hc htarget => by
      obtain ⟨-, hlocked⟩ := h.towardSynth c hc htarget
      rw [hoff] at hlocked
      cases hlocked
    refine ⟨fun _ => nofun, fun _ => hl, fun c hc htarget => (hon c hc htarget).elim, h.towardRef,
      fun hhold => ?_, h.prescaler⟩
    obtain ⟨-, hunlocked⟩ := h.held hhold
    rw [hoff] at hunlocked
    cases hunlocked
  | synthOff hsource htoward =>
    refine ⟨fun hs => absurd hs hsource, fun hne => absurd rfl hne, fun c hc htarget => ?_, h.towardRef,
      fun hhold => absurd (h.held hhold).1 hsource, h.prescaler⟩
    obtain ⟨target, kind⟩ := c
    obtain rfl : target = .synth := htarget
    exact absurd (b.towardSynth_iff.2 ⟨kind, hc⟩) (Bool.eq_false_iff.1 htoward)
  | select source hnone hsource hlocked =>
    refine ⟨h.runs, h.range, fun c hc htarget => ?_, fun c hc htarget => ?_, h.held, h.prescaler⟩
    · cases hc
      obtain rfl : source = .synth := htarget
      refine ⟨?_, hlocked rfl⟩
      cases hb : b.source with
      | ref => rfl
      | synth => exact absurd hb.symm hsource
    · cases hc
      obtain rfl : source = .ref := htarget
      cases hb : b.source with
      | ref => exact absurd hb.symm hsource
      | synth => rfl
  | prescale k => exact h.prescale k

theorem TimeLaw.ticked (h : TimeLaw b) : TimeLaw b.ticked :=
  ⟨h.runs, h.range, h.towardSynth, h.towardRef, h.held, Nat.two_pow_pos _⟩

theorem TimeLaw.cycles (h : TimeLaw s.time) (n : Nat) : TimeLaw (s.cycles n).time := by
  obtain hc | ⟨hlt, hc⟩ | ⟨-, hc⟩ := s.cycles_outcome n
  · rw [hc]
    exact h
  · rw [hc]
    exact ⟨h.runs, h.range, h.towardSynth, h.towardRef, h.held, hlt⟩
  · rw [hc]
    exact h.ticked

/-- A loop that can gain lock runs with a value of L. -/
theorem TimeBase.on_of_canGain {fRef : Nat} (h : b.canGain fRef = true) :
    b.synth = .acquiring ∨ b.synth = .unlocked := by
  obtain ⟨hstate, -⟩ := Bool.and_eq_true_iff.1 h
  simpa using hstate

theorem TimeLaw.gain (h : TimeLaw b) {fRef : Nat} (hgain : b.canGain fRef = true) :
    TimeLaw { b with synth := .locked, hold := false } where
  runs _ := nofun
  range _ := h.range (by obtain hs | hs := TimeBase.on_of_canGain hgain <;> simp [hs])
  towardSynth c hc htarget := ⟨(h.towardSynth c hc htarget).1, rfl⟩
  towardRef := h.towardRef
  held hhold := by cases hhold
  prescaler := h.prescaler

/-- Lock lost makes the synthesizer UNLOCKED, and may abandon a changeover to it, begin one away from it, or hold. -/
theorem TimeLaw.lose (h : TimeLaw b) (hlocked : b.synth = .locked) : TimeLaw b.lose.1 := by
  have hl : b.l ≠ 0 := h.range (by simp [hlocked])
  have hhold : b.hold ≠ true := fun hhold => by
    obtain ⟨-, hu⟩ := h.held hhold
    rw [hlocked] at hu
    cases hu
  unfold TimeBase.lose
  split
  · exact ⟨fun _ => nofun, fun _ => hl, fun _ hc => (by cases hc), fun _ hc => (by cases hc),
      fun hh => absurd hh hhold, h.prescaler⟩
  · next hsource hnot =>
    refine ⟨fun _ => nofun, fun _ => hl, fun c hc htarget => ?_, h.towardRef, fun hh => absurd hh hhold,
      h.prescaler⟩
    obtain ⟨target, kind⟩ := c
    obtain rfl : target = .synth := htarget
    exact (hnot kind hc).elim
  · next hsource hsome =>
    refine ⟨fun _ => nofun, fun _ => hl, fun c hc htarget => ?_, h.towardRef, fun hh => absurd hh hhold,
      h.prescaler⟩
    have href := (h.towardSynth c hc htarget).1
    rw [hsource] at href
    cases href
  · next hsource hnone =>
    split
    · refine ⟨fun _ => nofun, fun _ => hl, fun c hc htarget => ?_, fun c hc _ => hsource,
        fun hh => absurd hh hhold, h.prescaler⟩
      cases hc
      cases htarget
    · exact ⟨fun _ => nofun, fun _ => hl, fun c hc => (by rw [hnone] at hc; cases hc), h.towardRef,
        fun _ => ⟨hsource, rfl⟩, h.prescaler⟩

theorem TimeBase.locked_of_completing (hc : b.completing = some .synth) : b.synth = .locked := by
  unfold TimeBase.completing at hc
  split at hc
  · cases hc
  · split at hc
    · assumption
    · cases hc
  · cases hc

theorem TimeLaw.complete (h : TimeLaw b) {target : ClockSource} (hc : b.completing = some target) :
    TimeLaw (b.complete target) where
  runs hs := by
    obtain rfl : target = .synth := hs
    rw [TimeBase.complete, TimeBase.locked_of_completing hc]
    decide
  range := h.range
  towardSynth _ hc := by cases hc
  towardRef _ hc := by cases hc
  held hh := by cases hh
  prescaler := Nat.two_pow_pos _

theorem Occurs.keeps_timeLaw (hoccurs : Occurs i s t) (h : TimeLaw s.time) : TimeLaw t.time := by
  cases hoccurs with
  | fire e a due => rwa [State.settleLink_time, State.fireEntry_time]
  | tick n => exact h.cycles n
  | edge k => rwa [State.takeEdge_time]
  | lockGained fRef hgain => exact h.gain hgain
  | lockLost hlocked => exact h.lose hlocked
  | changeover target hc => exact h.complete hc
  | freezeSample | freezePin | firstLevels =>
    exact ⟨h.runs, h.range, h.towardSynth, h.towardRef, h.held, h.prescaler⟩
  | powerOn | nresetAssert => exact timeLaw_initial _ _
  | falseStart | gap | transmissionEnd => rwa [State.settleLink_time]
  | character => rwa [State.settleLink_time, State.examine_time]
  | transmissionBegin rxd => rwa [State.beginSending_time]
  | pendingInForce => rwa [State.settlePending_time]
  | _ => exact h

theorem timeLaw_kept : Kept fun s => TimeLaw s.time where
  pending _ _ h := h
  emptySlot _ _ h := h
  reply s src r h := by rwa [State.reply_time]
  settleLink s h := by rwa [State.settleLink_time]
  effect _ _ _ _ heffect h := heffect.time.keeps h
  event _ _ _ hoccurs h := hoccurs.keeps_timeLaw h
  refCycle s h := by
    unfold State.refCycle
    split
    · rw [State.settleLink_time]
      refine State.cycleByCycle_keeps (p := fun s => TimeLaw s.time) (fun s h => h.cycles 1) _ _ ?_
      rw [State.lineCycle_frame]
      exact ⟨h.runs, h.range, h.towardSynth, h.towardRef, h.held, h.prescaler⟩
    · exact h

/-! ### What moves the time count -/

/-- The command or event can change the time count: a tick, SET_TIME or a reset. -/
def MovesCount (i : Instr) : Prop :=
  (∃ n, i = .tick n) ∨ (∃ c, i = .setTime c) ∨ (∃ c sdi, i = .resetPart c sdi) ∨ (∃ a d l, i = .powerOnReset a d l) ∨
    i = .nresetAssert

theorem TimeEffect.count {b' : TimeBase} (h : TimeEffect i b b') : b'.count = b.count ∨ MovesCount i := by
  cases h with
  | reset c sdi hi => exact .inr (.inr (.inr (.inl ⟨c, sdi, hi⟩)))
  | setTime c t hi => exact .inr (.inr (.inl ⟨c, hi⟩))
  | prescale k =>
    unfold TimeBase.prescale
    split <;> exact .inl rfl
  | _ => exact .inl rfl

theorem TimeBase.lose_count (b : TimeBase) : b.lose.1.count = b.count := by
  unfold TimeBase.lose
  repeat' split
  all_goals rfl

theorem Occurs.count (h : Occurs i s t) : t.time.count = s.time.count ∨ MovesCount i := by
  cases h with
  | fire e a due => exact .inl (by rw [State.settleLink_time, State.fireEntry_time])
  | tick n hi => exact .inr (.inl ⟨n, hi⟩)
  | edge k => exact .inl (by rw [State.takeEdge_time])
  | lockLost => exact .inl s.time.lose_count
  | powerOn adr lspd low hi => exact .inr (.inr (.inr (.inr (.inl ⟨adr, lspd, low, hi⟩))))
  | nresetAssert hi => exact .inr (.inr (.inr (.inr (.inr hi))))
  | falseStart | gap => exact .inl (by rw [State.settleLink_time])
  | transmissionEnd => exact .inl (by rw [State.settleLink_time, State.endSending_frame])
  | character => exact .inl (by rw [State.settleLink_time, State.examine_time])
  | transmissionBegin rxd => exact .inl (by rw [State.beginSending_time]; rfl)
  | pendingInForce => exact .inl (by rw [State.settlePending_time])
  | _ => exact .inl rfl

/-- The time count changes by what can change it alone, and on an empty queue by the clock. -/
theorem step_count (h : step s = .next t) (hcount : t.time.count ≠ s.time.count) :
    s.pending = [] ∨ ∃ i rest, s.pending = i :: rest ∧ MovesCount i := by
  obtain ⟨hpending, -⟩ | ⟨i, rest, s₀, hpending, rfl, ⟨code, c, a, -, -, hexecutes, rfl⟩ | hoccurs⟩ := step_cases h
  · exact .inl hpending
  · refine .inr ⟨i, rest, hpending, ?_⟩
    rw [Answer.finish_time] at hcount
    obtain ⟨r, -, rfl⟩ | ⟨-, heffect⟩ := hexecutes
    · exact absurd rfl hcount
    · exact heffect.time.count.resolve_left hcount
  · exact .inr ⟨i, rest, hpending, hoccurs.count.resolve_left hcount⟩

end

end Sys2Proof.Machine

namespace Sys2Proof.Proofs
open Sys2Proof.Machine

/-- Settles O59: the time laws are kept change by change, and each change of the count is traced to what made it. -/
theorem timeLawKept : Obligations.TimeLawKept :=
  fun _ _ hlaw h => ⟨timeLaw_kept.step hlaw h, step_count h⟩

end Sys2Proof.Proofs
end

section
/-!
PROOFS. The laws of the notice queues (R90) and of the marker request (R98, R99) are kept by every step.
-/
namespace Sys2Proof.Machine

/-! ### One queue -/

/-- The laws of one queue, whose port owns these entries: each source at most once, owned entries alone, and no count
of 0. -/
structure QueueLaw (owns : EntryId → Bool) (q : List NoticeItem) : Prop where
  once : q.Pairwise fun i j => ¬ sameSource i j
  owned : ∀ e r, .entry e r ∈ q → owns e = true
  counted : ∀ i ∈ q, i.count ≠ 0

section
variable {owns owns' : EntryId → Bool} {q q' : List NoticeItem}

theorem QueueLaw.nil : QueueLaw owns [] := ⟨.nil, fun _ _ h => (by cases h), fun _ h => (by cases h)⟩

theorem QueueLaw.sublist (h : QueueLaw owns q) (hsub : q'.Sublist q) : QueueLaw owns q' :=
  ⟨h.once.sublist hsub, fun e r hi => h.owned e r (hsub.mem hi), fun i hi => h.counted i (hsub.mem hi)⟩

theorem QueueLaw.of_owned (h : QueueLaw owns q) (hown : ∀ e r, .entry e r ∈ q → owns' e = true) : QueueLaw owns' q :=
  ⟨h.once, hown, h.counted⟩

/-- An update of items in place keeps the laws: it keeps each item's source and leaves no count at 0. -/
theorem QueueLaw.map (h : QueueLaw owns q) {f : NoticeItem → NoticeItem} (hsource : ∀ i, sameSource (f i) i)
    (hcount : ∀ i, i.count ≠ 0 → (f i).count ≠ 0) : QueueLaw owns (q.map f) where
  once := by
    refine List.pairwise_map.2 (h.once.imp fun {i j} hij hf => hij ?_)
    have hi := hsource i
    have hj := hsource j
    generalize f i = i' at hf hi
    generalize f j = j' at hf hj
    cases i <;> cases i' <;> cases j <;> cases j' <;> simp_all [sameSource]
  owned e r hmem := by
    obtain ⟨i, hi, hf⟩ := List.mem_map.1 hmem
    have hs := hsource i
    rw [hf] at hs
    cases i with
    | entry e' r' =>
      obtain rfl : e = e' := hs
      exact h.owned e r' hi
    | timebase n f => exact hs.elim
  counted i hmem := by
    obtain ⟨j, hj, rfl⟩ := List.mem_map.1 hmem
    exact hcount j (h.counted j hj)

/-- An item of a new source joins at the tail. -/
theorem QueueLaw.append (h : QueueLaw owns q) {i : NoticeItem} (hnew : ∀ j ∈ q, ¬ sameSource j i)
    (hown : ∀ e r, i = .entry e r → owns e = true) (hcount : i.count ≠ 0) : QueueLaw owns (q ++ [i]) where
  once := List.pairwise_append.2 ⟨h.once, List.pairwise_singleton _ _, fun j hj k hk => by
    rw [List.mem_singleton.1 hk]
    exact hnew j hj⟩
  owned e r hmem := by
    obtain hq | hi := List.mem_append.1 hmem
    · exact h.owned e r hq
    · exact hown e r (List.mem_singleton.1 hi).symm
  counted j hmem := by
    obtain hq | hi := List.mem_append.1 hmem
    · exact h.counted j hq
    · rwa [List.mem_singleton.1 hi]

theorem saturate16_ne_zero (n : BitVec 16) (h : n ≠ 0) : saturate16 n ≠ 0 := by
  unfold saturate16
  split
  · exact h
  · bv_omega

theorem NoticeItem.reports_iff (i : NoticeItem) (e : EntryId) : i.reports e = true ↔ ∃ r, i = .entry e r := by
  cases i with
  | entry e' r => simp [NoticeItem.reports]
  | timebase n f => simp [NoticeItem.reports]

theorem NoticeItem.again_source (e : EntryId) (tag : BitVec 16) (flags : EntryFlags) (due : Word) (i : NoticeItem) :
    sameSource (i.again e tag flags due) i := by
  cases i with
  | entry e' r =>
    unfold NoticeItem.again
    dsimp only
    split <;> rfl
  | timebase n f => trivial

theorem NoticeItem.again_count (e : EntryId) (tag : BitVec 16) (flags : EntryFlags) (due : Word) (i : NoticeItem)
    (h : i.count ≠ 0) : (i.again e tag flags due).count ≠ 0 := by
  cases i with
  | entry e' r =>
    unfold NoticeItem.again
    dsimp only
    split
    · exact saturate16_ne_zero _ h
    · exact h
  | timebase n f => exact h

/-- An ENTRY posting of an entry the port owns keeps the laws (R92). -/
theorem QueueLaw.postEntry (h : QueueLaw owns q) {e : EntryId} (hown : owns e = true) (tag : BitVec 16)
    (flags : EntryFlags) (due : Word) : QueueLaw owns (postEntry q e tag flags due) := by
  cases hany : q.any (NoticeItem.reports e) with
  | true =>
    rw [postEntry_of_any hany]
    exact h.map (NoticeItem.again_source e tag flags due) (NoticeItem.again_count e tag flags due)
  | false =>
    rw [postEntry_of_not_any hany]
    refine h.append (fun j hj hs => ?_) (fun e' r hr => ?_) (by simp [NoticeItem.count])
    · refine Bool.eq_false_iff.1 hany (List.any_eq_true.2 ⟨j, hj, (j.reports_iff e).2 ?_⟩)
      cases j with
      | entry e' r =>
        obtain rfl : e' = e := hs
        exact ⟨r, rfl⟩
      | timebase n f => exact hs.elim
    · cases hr
      exact hown

/-- The TIMEBASE item updated by one more posting; any other item stays (R93). -/
def NoticeItem.againTime (flags : TimeFlags) : NoticeItem → NoticeItem
  | .entry e r => .entry e r
  | .timebase n f => .timebase (saturate16 n) (f.union flags)

theorem postTimebase_of_any (h : q.any NoticeItem.isTimebase = true) (flags : TimeFlags) :
    postTimebase q flags = q.map (NoticeItem.againTime flags) :=
  if_pos h

theorem postTimebase_of_not_any (h : q.any NoticeItem.isTimebase = false) (flags : TimeFlags) :
    postTimebase q flags = q ++ [.timebase 1 flags] :=
  if_neg (by simp [h])

/-- A TIMEBASE posting keeps the laws (R93). -/
theorem QueueLaw.postTimebase (h : QueueLaw owns q) (flags : TimeFlags) : QueueLaw owns (postTimebase q flags) := by
  cases hany : q.any NoticeItem.isTimebase with
  | true =>
    rw [postTimebase_of_any hany]
    refine h.map (fun i => ?_) (fun i hi => ?_)
    · cases i with
      | entry e r => rfl
      | timebase n f => trivial
    · cases i with
      | entry e r => exact hi
      | timebase n f => exact saturate16_ne_zero n hi
  | false =>
    rw [postTimebase_of_not_any hany]
    refine h.append (fun j hj hs => ?_) (fun e r hr => (by cases hr)) (by simp [NoticeItem.count])
    refine Bool.eq_false_iff.1 hany (List.any_eq_true.2 ⟨j, hj, ?_⟩)
    cases j with
    | entry e r => exact hs.elim
    | timebase n f => rfl

theorem isTimebase_of_postEntry (h : ∀ i ∈ q, i.isTimebase = false) (e : EntryId) (tag : BitVec 16)
    (flags : EntryFlags) (due : Word) : ∀ i ∈ postEntry q e tag flags due, i.isTimebase = false := by
  cases hany : q.any (NoticeItem.reports e) with
  | true =>
    rw [postEntry_of_any hany]
    intro i hi
    obtain ⟨j, hj, rfl⟩ := List.mem_map.1 hi
    cases j with
    | entry e' r =>
      unfold NoticeItem.again
      dsimp only
      split <;> rfl
    | timebase n f => cases h _ hj
  | false =>
    rw [postEntry_of_not_any hany]
    intro i hi
    obtain hq | hi := List.mem_append.1 hi
    · exact h i hq
    · rw [List.mem_singleton.1 hi]
      rfl

theorem mem_withoutEntry {e : EntryId} {i : NoticeItem} : i ∈ withoutEntry e q ↔ i ∈ q ∧ i.reports e = false := by
  simp [withoutEntry]

theorem withoutEntry_sublist (e : EntryId) (q : List NoticeItem) : (withoutEntry e q).Sublist q := List.filter_sublist

theorem mem_of_entryReport {e : EntryId} {r : EntryReport} (h : entryReport e q = some r) : .entry e r ∈ q := by
  induction q with
  | nil => cases h
  | cons i q ih =>
    cases i with
    | entry e' r' =>
      by_cases he : e' = e
      · subst he
        simp only [entryReport, if_true, Option.some.injEq] at h
        rw [h]
        exact List.mem_cons_self
      · exact List.mem_cons_of_mem _ (ih (by simpa [entryReport, he] using h))
    | timebase n f => exact List.mem_cons_of_mem _ (ih h)

theorem not_mem_of_entryReport {e : EntryId} (h : entryReport e q = none) (r : EntryReport) : .entry e r ∉ q := by
  intro hmem
  obtain ⟨r', hr'⟩ := entryReport_of_any (List.any_eq_true.2 ⟨_, hmem, ((NoticeItem.reports_iff _ e).2 ⟨r, rfl⟩)⟩)
  rw [h] at hr'
  cases hr'

end

/-! ### The notice unit -/

/-- The laws of the notice unit, for ports that own these entries. -/
structure UnitLaw (owns : Port → EntryId → Bool) (n : NoticeUnit) : Prop where
  queue : ∀ p, QueueLaw (owns p) (n.queues.get p)
  noTimebase : ∀ i ∈ n.queues.link, i.isTimebase = false
  marker : MarkerLaw n

section
variable {owns owns' : Port → EntryId → Bool} {n : NoticeUnit} {p : Port} {q : List NoticeItem}

@[simp] theorem NoticeUnit.setQueue_get_other (n : NoticeUnit) (p : Port) (q : List NoticeItem) :
    (n.setQueue p q).queues.get p.other = n.queues.get p.other := by
  cases p <;> rfl

@[simp] theorem NoticeUnit.setQueue_signalling (n : NoticeUnit) (p : Port) (q : List NoticeItem) :
    (n.setQueue p q).signalling = n.signalling := by
  cases p <;> rfl

@[simp] theorem NoticeUnit.setQueue_consume (n : NoticeUnit) (p : Port) (q : List NoticeItem) :
    (n.setQueue p q).consume = n.consume := by
  cases p <;> rfl

/-- A new queue raises and withdraws the marker request as R98 and R99 ask. -/
theorem MarkerLaw.setQueue (h : MarkerLaw n) (p : Port) (q : List NoticeItem) : MarkerLaw (n.setQueue p q) := by
  cases p with
  | spi => exact h
  | link =>
    intro hm
    have hne : q ≠ [] := by
      rintro rfl
      cases hm
    have hmarker : n.marker = true ∨ (n.queues.link.isEmpty = true ∧ n.signalling.link = true) := by
      simpa [NoticeUnit.setQueue, hne] using hm
    refine ⟨hne, ?_⟩
    obtain hm | ⟨-, hsignalling⟩ := hmarker
    · exact (h hm).2
    · exact hsignalling

theorem UnitLaw.setQueue (h : UnitLaw owns n) (hq : QueueLaw (owns p) q)
    (ht : p = .link → ∀ i ∈ q, i.isTimebase = false) : UnitLaw owns (n.setQueue p q) where
  queue r := by
    by_cases hr : r = p
    · rw [hr, NoticeUnit.setQueue_get]
      exact hq
    · obtain rfl := (Port.ne_iff _ _).1 hr
      rw [NoticeUnit.setQueue_get_other]
      exact h.queue _
  noTimebase := by
    cases p with
    | spi => exact h.noTimebase
    | link => exact ht rfl
  marker := h.marker.setQueue p q

/-- A queue cut down keeps the laws. -/
theorem UnitLaw.setQueue_sublist (h : UnitLaw owns n) (hsub : q.Sublist (n.queues.get p)) :
    UnitLaw owns (n.setQueue p q) := by
  refine h.setQueue ((h.queue p).sublist hsub) ?_
  rintro rfl
  exact fun i hi => h.noTimebase i (hsub.mem hi)

theorem UnitLaw.of_owned (h : UnitLaw owns n) (hown : ∀ p e r, .entry e r ∈ n.queues.get p → owns' p e = true) :
    UnitLaw owns' n :=
  ⟨fun p => (h.queue p).of_owned (hown p), h.noTimebase, h.marker⟩

/-- A marker request that is withdrawn keeps the laws. -/
theorem UnitLaw.withdraw (h : UnitLaw owns n) {m : Bool} (hm : m = true → n.marker = true) :
    UnitLaw owns { n with marker := m } :=
  ⟨h.queue, h.noTimebase, fun hmarker => h.marker (hm hmarker)⟩

theorem UnitLaw.afterTake (h : UnitLaw owns n) (p : Port) : UnitLaw owns (n.afterTake p) := by
  cases p with
  | spi => exact h
  | link =>
    refine ⟨h.queue, h.noTimebase, fun hm => ?_⟩
    have hmarker : n.marker = true ∨ (n.queues.link ≠ [] ∧ n.signalling.link = true) := by
      simpa [NoticeUnit.afterTake] using hm
    exact hmarker.elim (fun hm => h.marker hm) id

theorem UnitLaw.configure (h : UnitLaw owns n) (p : Port) (signalling consume : Bool) :
    UnitLaw owns (n.configure p signalling consume) := by
  refine ⟨h.queue, h.noTimebase, ?_⟩
  cases p with
  | spi => exact fun hm => h.marker hm
  | link =>
    intro hm
    have hmarker : signalling = true ∧ (n.marker = true ∨ (n.signalling.link = false ∧ n.queues.link ≠ [])) := by
      simpa [NoticeUnit.configure] using hm
    obtain ⟨hsignalling, hm | ⟨-, hne⟩⟩ := hmarker
    · exact ⟨(h.marker hm).1, hsignalling⟩
    · exact ⟨hne, hsignalling⟩

/-- No item of an entry stands in a queue whose port does not own it. -/
theorem UnitLaw.not_mem (h : UnitLaw owns n) {e : EntryId} (hown : owns p e = false) (r : EntryReport) :
    .entry e r ∉ n.queues.get p := fun hmem => by
  rw [(h.queue p).owned e r hmem] at hown
  cases hown

/-- GIVE moves the entry's item with the entry (R19). -/
theorem UnitLaw.moveItem (h : UnitLaw owns n) {e : EntryId} (howns : owns p.other e = false)
    (howns' : owns' p.other e = true) (hkept : ∀ q x, x ≠ e → owns' q x = owns q x) :
    UnitLaw owns' (n.moveItem e p) := by
  have hother : ∀ r, .entry e r ∉ n.queues.get p.other := h.not_mem howns
  unfold NoticeUnit.moveItem
  split
  · next r hr =>
    have hmem := mem_of_entryReport hr
    have hcut : UnitLaw owns' (n.setQueue p (withoutEntry e (n.queues.get p))) := by
      have hlaw := h.setQueue_sublist (p := p) (withoutEntry_sublist e _)
      refine hlaw.of_owned fun q x r' hx => ?_
      have hne : x ≠ e := by
        rintro rfl
        by_cases hq : q = p
        · rw [hq, NoticeUnit.setQueue_get, mem_withoutEntry] at hx
          simp [NoticeItem.reports] at hx
        · obtain rfl := (Port.ne_iff _ _).1 hq
          rw [NoticeUnit.setQueue_get_other] at hx
          exact hother r' hx
      rw [hkept q x hne]
      exact (hlaw.queue q).owned x r' hx
    have hqueue := hcut.queue p.other
    rw [NoticeUnit.setQueue_get_other] at hqueue
    refine hcut.setQueue (hqueue.append (fun j hj hs => ?_) (fun e' r' he => ?_) ?_) fun hp i hi => ?_
    · cases j with
      | entry e' r' =>
        obtain rfl : e' = e := hs
        exact hother r' hj
      | timebase => exact hs.elim
    · cases he
      exact howns'
    · exact (h.queue p).counted _ hmem
    · obtain hi | hi := List.mem_append.1 hi
      · exact h.noTimebase i (by rwa [hp] at hi)
      · rw [List.mem_singleton.1 hi]
        rfl
  · next hr =>
    refine h.of_owned fun q x r hx => ?_
    have hne : x ≠ e := by
      rintro rfl
      by_cases hq : q = p
      · rw [hq] at hx
        exact not_mem_of_entryReport hr r hx
      · obtain rfl := (Port.ne_iff _ _).1 hq
        exact hother r hx
    rw [hkept q x hne]
    exact (h.queue q).owned x r hx

end

/-! ### The part -/

/-- The notice laws of the part: those of its notice unit for the owners in its table. -/
def NoticeLaws (s : State) : Prop := UnitLaw (fun p e => ownedBy p (s.entry e)) s.notices

theorem noticeLaws_iff (s : State) : NoticeLaws s ↔ NoticeLaw s ∧ MarkerLaw s.notices := by
  constructor
  · intro h
    exact ⟨⟨fun p => (h.queue p).once, fun p => (h.queue p).owned, fun p => (h.queue p).counted, h.noTimebase⟩, h.marker⟩
  · rintro ⟨h, hm⟩
    exact ⟨fun p => ⟨h.once p, h.owned p, h.counted p⟩, h.noTimebase, hm⟩

section
variable {i : Instr} {p : Port} {s t : State}

theorem NoticeLaws.of_continues (hs : NoticeLaws s) (h : s.Continues t) (hn : t.notices = s.notices) :
    NoticeLaws t := by
  have howned : (fun p e => ownedBy p (t.entry e)) = fun p e => ownedBy p (s.entry e) :=
    funext fun p => funext fun e => h.ownedBy_eq p e
  rw [NoticeLaws, howned, hn]
  exact hs

theorem NoticeLaws.of_entries (hs : NoticeLaws s) (he : t.entries = s.entries) (hn : t.notices = s.notices) :
    NoticeLaws t :=
  hs.of_continues (.of_entries he) hn

/-- A record written in place of another of the same owner. -/
theorem NoticeLaws.setEntry {e : EntryId} {a b : Entry} (hs : NoticeLaws s) (he : s.entry e = some a)
    (ho : b.owner = a.owner) : NoticeLaws (s.setEntry e (some b)) :=
  UnitLaw.of_owned hs fun q x r hx => by
    rw [State.ownedBy_setEntry he ho]
    exact (hs.queue q).owned x r hx

theorem NoticeLaws.alloc {e : EntryId} (hs : NoticeLaws s) (hfree : s.entry e = none) (a : Entry) :
    NoticeLaws (s.setEntry e (some a)) :=
  UnitLaw.of_owned hs fun q x r hx => by
    have hne : x ≠ e := by
      rintro rfl
      exact hs.not_mem (by simp [hfree, ownedBy]) r hx
    rw [State.entry_setEntry, if_neg hne]
    exact (hs.queue q).owned x r hx

theorem State.retireEntry_notices (s : State) (e : EntryId) (a : Entry) :
    (s.retireEntry e a).notices = s.notices.setQueue a.owner (withoutEntry e (s.notices.queues.get a.owner)) := rfl

theorem NoticeLaws.retire {e : EntryId} {a : Entry} (hs : NoticeLaws s) (he : s.entry e = some a) :
    NoticeLaws (s.retireEntry e a) := by
  rw [NoticeLaws, State.retireEntry_notices]
  have hcut := UnitLaw.setQueue_sublist hs (p := a.owner) (withoutEntry_sublist e _)
  refine UnitLaw.of_owned hcut fun q x r hx => ?_
  have hne : x ≠ e := by
    rintro rfl
    by_cases hq : q = a.owner
    · rw [hq, NoticeUnit.setQueue_get, mem_withoutEntry] at hx
      simp [NoticeItem.reports] at hx
    · have hother := (Port.ne_iff _ _).1 hq
      rw [hother, NoticeUnit.setQueue_get_other] at hx
      exact hs.not_mem (by simp [he, ownedBy, (Port.other_ne a.owner).symm]) r hx
  rw [State.ownedBy_retireEntry a q hne]
  exact (hcut.queue q).owned x r hx

theorem NoticeLaws.give {e : EntryId} {a : Entry} (hs : NoticeLaws s) (he : s.entry e = some a) (ho : a.owner = p) :
    NoticeLaws { s.setEntry e (some { a with owner := p.other }) with notices := s.notices.moveItem e p } := by
  refine UnitLaw.moveItem hs ?_ ?_ fun q x hx => ?_
  · simp [he, ownedBy, ho, (Port.other_ne p).symm]
  · exact (congrArg (ownedBy p.other) ((s.entry_setEntry e e _).trans (if_pos rfl))).trans (by simp [ownedBy])
  · exact congrArg (ownedBy q) ((s.entry_setEntry e x _).trans (if_neg hx))

theorem State.clearLink_notices (s : State) : s.clearLink.notices = s.notices.setQueue .link [] := by
  simp [State.clearLink, State.retireLink]

theorem NoticeLaws.clearLink (hs : NoticeLaws s) : NoticeLaws s.clearLink := by
  rw [NoticeLaws, State.clearLink_notices]
  have hcut := UnitLaw.setQueue_sublist hs (p := .link) (List.nil_sublist _)
  refine UnitLaw.of_owned hcut fun q x r hx => ?_
  cases q with
  | link => cases hx
  | spi =>
    have hspi := (hs.queue .spi).owned x r hx
    obtain ⟨a, ha, ho⟩ := (ownedBy_iff _ _).1 hspi
    rw [State.entry_clearLink, ha, if_neg (by simp [ownedBy, ho]), ownedBy_some]
    exact ho

theorem NoticeLaws.post (hs : NoticeLaws s) {e : EntryId} (hown : ownedBy p (s.entry e) = true) (tag : BitVec 16)
    (flags : EntryFlags) (due : Word) : NoticeLaws (s.post p e tag flags due) := by
  refine UnitLaw.setQueue hs ((hs.queue p).postEntry hown tag flags due) ?_
  rintro rfl
  exact isTimebase_of_postEntry hs.noTimebase e tag flags due

theorem NoticeLaws.postTime (hs : NoticeLaws s) (flags : TimeFlags) : NoticeLaws (s.postTime flags) :=
  UnitLaw.setQueue hs ((hs.queue .spi).postTimebase flags) fun h => (by cases h)

/-- The transmit arbiter withdraws a marker request and never raises one (R171). -/
theorem State.marker_of_beginSending (h : s.beginSending.notices.marker = true) : s.notices.marker = true := by
  obtain ⟨-, hb⟩ | ⟨-, r, -, hb⟩ | ⟨-, -, hm, -⟩ := s.beginSending_outcome
  · rwa [hb] at h
  · rwa [hb] at h
  · exact hm

theorem NoticeLaws.beginSending (hs : NoticeLaws s) : NoticeLaws s.beginSending := by
  rw [State.beginSending_frame]
  exact UnitLaw.withdraw hs State.marker_of_beginSending

theorem NoticeLaws.settlePending (hs : NoticeLaws s) : NoticeLaws s.settlePending := by
  rw [State.settlePending_frame]
  exact hs

theorem NoticeLaws.settleLink (hs : NoticeLaws s) : NoticeLaws s.settleLink := hs.settlePending.beginSending

theorem NoticeLaws.resetBlocks (s : State) (cause : ResetCause) (link : LinkPort) :
    NoticeLaws (s.resetBlocks cause link) := by
  refine ⟨fun p => ?_, fun i hi => (by cases hi), fun hm => (by cases hm)⟩
  cases p <;> exact .nil

theorem Effect.keeps_noticeLaws (h : Effect i p s t) (hs : NoticeLaws s) : NoticeLaws t := by
  cases h with
  | reset c sdi =>
    exact (NoticeLaws.resetBlocks s .command
      { LinkPort.initial s.link.address s.link.settings with divider := s.link.divider }).of_entries rfl rfl
  | alloc e hfree => exact hs.alloc hfree _
  | retire e a he => exact hs.retire he
  | config e a f he => exact hs.setEntry he rfl
  | stage e a w he => exact hs.setEntry he rfl
  | move e a b he hab => exact hs.of_continues (.move he hab) (by rw [State.move_frame])
  | give e a he ho => exact hs.give he ho
  | evict => exact hs.clearLink.of_entries rfl rfl
  | leave => exact hs.clearLink
  | takeKept => exact UnitLaw.afterTake hs p
  | take k => exact (UnitLaw.setQueue_sublist hs (List.drop_sublist k _)).afterTake p
  | noticeConfig signalling consume => exact UnitLaw.configure hs p signalling consume
  | release l k => exact hs.of_entries (s.releaseClaims_entries l k) (s.releaseClaims_notices l k)
  | setTime c t => exact hs.of_continues (.setTime s t) rfl
  | _ => exact hs.of_entries rfl rfl

/-- A firing posts to the queue of its entry's owner. -/
theorem NoticeLaws.fireEntry {e : EntryId} {a : Entry} (hs : NoticeLaws s) (he : s.entry e = some a) (due : Word) :
    NoticeLaws (s.fireEntry e a due) := by
  obtain ⟨u, hmoves, hu⟩ := State.fireEntry_moves he due
  have hcontinues : s.Continues u := hmoves.continues
  have hlaw : NoticeLaws u := hs.of_continues hcontinues (by rw [hmoves.frame])
  have hown : ownedBy a.owner (u.entry e) = true := by
    rw [hcontinues.ownedBy_eq, he, ownedBy_some]
  obtain hu | ⟨flags, hu⟩ := hu
  · rwa [hu]
  · rw [hu]
    exact hlaw.post hown _ _ _

theorem Occurs.keeps_noticeLaws (h : Occurs i s t) (hs : NoticeLaws s) : NoticeLaws t := by
  cases h with
  | fire e a due h => exact (hs.fireEntry h.record due).settleLink
  | tick n => exact hs.of_entries (by rw [State.cycles_frame]) (by rw [State.cycles_frame])
  | edge k =>
    obtain ⟨r, -, hmoves⟩ := s.takeEdge_moves k
    exact hs.of_continues hmoves.continues (by rw [hmoves.frame]; rfl)
  | lockGained _ _ f => exact NoticeLaws.postTime (hs.of_entries rfl rfl) f
  | lockLost _ f => exact NoticeLaws.postTime (hs.of_entries rfl rfl) f
  | changeover _ _ f => exact NoticeLaws.postTime (hs.of_entries rfl rfl) f
  | powerOn | nresetAssert => exact (NoticeLaws.resetBlocks s .pin s.link).of_entries rfl rfl
  | falseStart | gap | transmissionEnd => exact NoticeLaws.settleLink (hs.of_entries rfl rfl)
  | character =>
    refine NoticeLaws.settleLink ?_
    rw [State.examine_frame]
    exact hs.of_entries rfl rfl
  | transmissionBegin rxd => exact NoticeLaws.beginSending (hs.of_entries rfl rfl)
  | pendingInForce => exact hs.settlePending
  | _ => exact hs.of_entries rfl rfl

theorem noticeLaws_kept : Kept NoticeLaws where
  pending _ _ h := h.of_entries rfl rfl
  emptySlot _ _ h := h.of_entries rfl rfl
  reply s src r h := by cases src <;> exact h.of_entries rfl rfl
  settleLink _ h := h.settleLink
  effect _ _ _ _ heffect h := heffect.keeps_noticeLaws h
  event _ _ _ hoccurs h := hoccurs.keeps_noticeLaws h
  refCycle s h := by
    unfold State.refCycle
    split
    · refine NoticeLaws.settleLink ?_
      rw [State.cycleByCycle_frame, State.lineCycle_frame]
      exact h.of_entries rfl rfl
    · exact h

end

end Sys2Proof.Machine

namespace Sys2Proof.Proofs
open Sys2Proof.Machine

/-- Settles O58: the laws of each queue and of the marker request are kept by every effect, event and the clock. -/
theorem noticeLawsKept : Obligations.NoticeLawsKept := by
  intro s t hnotice hmarker h
  exact (noticeLaws_iff t).1 (noticeLaws_kept.step ((noticeLaws_iff s).2 ⟨hnotice, hmarker⟩) h)

end Sys2Proof.Proofs
end

section
/-!
PROOFS. The laws of the line unit: what an entry's actions and trigger need is claimed by its owner and in the right mode
(R4), and a SEQUENCE group shows its pattern, with its position within its limits (R60).
-/
namespace Sys2Proof.Machine

/-! ### Claims and modes -/

/-- The action needs the line: it names it, or a group that contains it. -/
def Action.NeedsLine (x : Action) (l : Fin 16) : Prop := x.lineTarget = some l ∨ x.group = some (groupOf l)

theorem LineUnit.claimsGroup_iff (u : LineUnit) (p : Port) (g : Fin 4) :
    u.claimsGroup p g = true ↔ ∀ l, groupOf l = g → u.lineClaims.get l = some p := by
  simp [LineUnit.claimsGroup]

/-- An action is claimed when each line it needs is. -/
theorem LineUnit.claimsAction_iff (u : LineUnit) (p : Port) (x : Action) :
    u.claimsAction p x = true ↔ ∀ l, x.NeedsLine l → u.lineClaims.get l = some p := by
  have hgroup : ∀ g : Fin 4, u.claimsGroup p g = true ↔ ∀ l, some g = some (groupOf l) → u.lineClaims.get l = some p := by
    intro g
    rw [u.claimsGroup_iff]
    exact forall_congr' fun l => by rw [Option.some.injEq, eq_comm]
  cases x with
  | none => simp [LineUnit.claimsAction, Action.NeedsLine, Action.lineTarget, Action.group]
  | line op l => simp [LineUnit.claimsAction, Action.NeedsLine, Action.lineTarget, Action.group]
  | stepFwd g | stepRev g | loadPhase g _ =>
    refine (hgroup g).trans (forall_congr' fun l => ?_)
    simp [Action.NeedsLine, Action.lineTarget, Action.group]

theorem LineUnit.claimsTrigger_iff (u : LineUnit) (p : Port) (k : Option (Fin 8)) :
    u.claimsTrigger p k = true ↔ ∀ k', k = some k' → u.triggerClaims.get k' = some p := by
  cases k <;> simp [LineUnit.claimsTrigger]

section
variable {u u' : LineUnit} {p : Port} {x : Action} {k : Option (Fin 8)}

theorem LineUnit.claimsAction_of (h : u.claimsAction p x = true)
    (hkept : ∀ l, x.NeedsLine l → u.lineClaims.get l = some p → u'.lineClaims.get l = some p) :
    u'.claimsAction p x = true :=
  (u'.claimsAction_iff p x).2 fun l hl => hkept l hl ((u.claimsAction_iff p x).1 h l hl)

theorem LineUnit.claimsTrigger_of (h : u.claimsTrigger p k = true)
    (hkept : ∀ k', k = some k' → u.triggerClaims.get k' = some p → u'.triggerClaims.get k' = some p) :
    u'.claimsTrigger p k = true :=
  (u'.claimsTrigger_iff p k).2 fun k' hk => hkept k' hk ((u.claimsTrigger_iff p k).1 h k' hk)

/-- The mode an action needs is a matter of the groups' modes alone. -/
theorem LineUnit.modeAdmits_congr (h : ∀ g, (u'.groups.get g).mode = (u.groups.get g).mode) (x : Action) :
    u'.modeAdmits x = u.modeAdmits x := by
  cases x <;> simp [LineUnit.modeAdmits, h]

/-- A change of a group to a mode that the action does not bar leaves the action admitted (R61, R62). -/
theorem LineUnit.modeAdmits_of_mode {g : Fin 4} {m : GroupMode} (h : u.modeAdmits x = true)
    (hbars : actionBars x g m = false)
    (hmode : ∀ j, (u'.groups.get j).mode = if j = g then m else (u.groups.get j).mode) : u'.modeAdmits x = true := by
  have hgroup : ∀ j, (u.groups.get j).mode = .sequence → (m = .lines → j ≠ g) → (u'.groups.get j).mode = .sequence := by
    intro j hj hne
    rw [hmode]
    split
    · next hg => cases m with
      | lines => exact absurd hg (hne rfl)
      | sequence => rfl
    · exact hj
  cases x with
  | none => rfl
  | line op l =>
    simp only [LineUnit.modeAdmits, beq_iff_eq, hmode] at h ⊢
    split
    · next hg => cases m with
      | lines => rfl
      | sequence => simp [actionBars, Action.lineTarget, hg] at hbars
    · exact h
  | stepFwd j | stepRev j | loadPhase j _ =>
    simp only [LineUnit.modeAdmits, beq_iff_eq] at h ⊢
    refine hgroup j h ?_
    rintro rfl rfl
    simp [actionBars, Action.group] at hbars

end

/-- The action is claimed by the port and its group is in the mode it needs (R4). -/
def LineUnit.Serves (u : LineUnit) (p : Port) (x : Action) : Prop := u.claimsAction p x = true ∧ u.modeAdmits x = true

theorem LineUnit.serves_none (u : LineUnit) (p : Port) : u.Serves p .none := ⟨rfl, rfl⟩

/-- What a record needs of the line unit: its action, its staged action and its trigger (R4). -/
structure LineUnit.ServesEntry (u : LineUnit) (a : Entry) : Prop where
  action : u.Serves a.owner a.action
  staged : u.Serves a.owner (a.staged.action.getD .none)
  trigger : u.claimsTrigger a.owner a.trigger = true

theorem LineUnit.claimsEntry_iff (u : LineUnit) (p : Port) (a : Entry) :
    u.claimsEntry p a = true ↔ u.claimsAction p a.action = true ∧
      u.claimsAction p (a.staged.action.getD .none) = true ∧ u.claimsTrigger p a.trigger = true := by
  simp [LineUnit.claimsEntry, and_assoc]

theorem actionLaw_iff (s : State) : ActionLaw s ↔ ∀ e a, s.entry e = some a → s.lines.ServesEntry a := by
  refine forall₂_congr fun e a => imp_congr_right fun _ => ?_
  rw [LineUnit.claimsEntry_iff]
  constructor
  · rintro ⟨⟨haction, hstaged, htrigger⟩, hmode, hmode'⟩
    exact ⟨⟨haction, hmode⟩, ⟨hstaged, hmode'⟩, htrigger⟩
  · rintro ⟨⟨haction, hmode⟩, ⟨hstaged, hmode'⟩, htrigger⟩
    exact ⟨⟨haction, hstaged, htrigger⟩, hmode, hmode'⟩

section
variable {u u' : LineUnit} {a b : Entry}

theorem LineUnit.ServesEntry.continues (h : u.ServesEntry a) (hab : a.Continues b) : u.ServesEntry b where
  action := by
    rw [hab.owner]
    obtain hkept | hstaged := hab.action
    · rw [hkept]
      exact h.action
    · simpa [hstaged] using h.staged
  staged := by
    rw [hab.owner]
    obtain hkept | hnone := hab.staged
    · rw [hkept]
      exact h.staged
    · rw [hnone]
      exact u.serves_none _
  trigger := by
    rw [hab.owner, hab.trigger]
    exact h.trigger

/-- A unit with the claims that the record needs and the modes of another serves it too. -/
theorem LineUnit.ServesEntry.of_claims (h : u.ServesEntry a)
    (hmode : ∀ g, (u'.groups.get g).mode = (u.groups.get g).mode)
    (hline : ∀ l, a.action.NeedsLine l ∨ (a.staged.action.getD .none).NeedsLine l →
      u.lineClaims.get l = some a.owner → u'.lineClaims.get l = some a.owner)
    (htrigger : ∀ k, a.trigger = some k → u.triggerClaims.get k = some a.owner →
      u'.triggerClaims.get k = some a.owner) : u'.ServesEntry a where
  action := ⟨claimsAction_of h.action.1 fun l hl => hline l (.inl hl), (modeAdmits_congr hmode _).trans h.action.2⟩
  staged := ⟨claimsAction_of h.staged.1 fun l hl => hline l (.inr hl), (modeAdmits_congr hmode _).trans h.staged.2⟩
  trigger := claimsTrigger_of h.trigger htrigger

end

/-! ### Levels and limits of the groups -/

section
variable {u u' : LineUnit} {g : Fin 4} {group : Group}

theorem groupLevels_congr {v w : BitVec 16} (h : ∀ l : Fin 16, groupOf l = g → v.getLsbD l.val = w.getLsbD l.val) :
    groupLevels v g = groupLevels w g := by
  apply BitVec.eq_of_getLsbD_eq
  intro i hi
  have hg := g.isLt
  simp only [groupLevels, BitVec.getLsbD_extractLsb', firstLine, hi, decide_true, Bool.true_and]
  exact h ⟨4 * g.val + i, by omega⟩ (Fin.ext (show (4 * g.val + i) / 4 = g.val by omega))

theorem GroupLaw.putGroup (h : GroupLaw u) (hlimits : withinLimits group.limits group.position = true) :
    GroupLaw (u.putGroup g group) := by
  intro j
  rw [LineUnit.putGroup_groups, LineUnit.putGroup_levels]
  by_cases hj : j = g
  · rw [if_pos hj]
    exact ⟨fun hmode => if_pos ⟨hj, hmode⟩, hlimits⟩
  · rw [if_neg hj, if_neg fun hand => hj hand.1]
    exact h j

theorem LineUnit.setGroup_groups (u : LineUnit) (g j : Fin 4) (group : Group) :
    (u.setGroup g group).groups.get j = if j = g then group else u.groups.get j := by
  simp only [LineUnit.setGroup, get_set, Fin.ext_iff]

/-- A group replaced by one that shows the same pattern in the same mode. -/
theorem GroupLaw.setGroup (h : GroupLaw u) (hmode : group.mode = (u.groups.get g).mode)
    (hpattern : group.pattern = (u.groups.get g).pattern) (hlimits : withinLimits group.limits group.position = true) :
    GroupLaw (u.setGroup g group) := by
  intro j
  rw [LineUnit.setGroup_groups]
  by_cases hj : j = g
  · subst hj
    rw [if_pos rfl, hmode, hpattern]
    exact ⟨(h j).1, hlimits⟩
  · rw [if_neg hj]
    exact h j

/-- Levels that change in LINES groups alone keep the law. -/
theorem GroupLaw.of_levels (h : GroupLaw u) (hgroups : u'.groups = u.groups)
    (hlevels : ∀ j, (u.groups.get j).mode = .sequence → groupLevels u'.levels j = groupLevels u.levels j) :
    GroupLaw u' := by
  intro j
  rw [hgroups]
  refine ⟨fun hmode => ?_, (h j).2⟩
  rw [hlevels j hmode]
  exact (h j).1 hmode

theorem groupLaw_initial : GroupLaw LineUnit.initial := by
  intro g
  simp [LineUnit.initial, Group.initial, withinLimits]

/-- The action of a firing keeps the law: a line action writes a LINES group, and a step stays within the limits. -/
theorem GroupLaw.deliver (h : GroupLaw u) {x : Action} (hmode : u.modeAdmits x = true) : GroupLaw (u.deliver x).2 := by
  have hstep : ∀ g forward, GroupLaw (u.stepGroup g forward).2 := by
    intro g forward
    cases hw : withinLimits (u.groups.get g).limits ((u.groups.get g).stepped forward).position with
    | false =>
      rw [LineUnit.stepGroup_beyond hw]
      exact h
    | true =>
      rw [LineUnit.stepGroup_within hw]
      refine h.putGroup ?_
      rw [Group.stepped_eq] at hw ⊢
      exact hw
  cases x with
  | none => exact h
  | line op l =>
    refine h.of_levels rfl fun j hj => groupLevels_congr fun m hm => ?_
    have hne : m ≠ l := by
      rintro rfl
      simp [LineUnit.modeAdmits, hm, hj] at hmode
    exact (getLsbD_lineAction _ _ _ _).trans (if_neg hne)
  | stepFwd g => exact hstep g true
  | stepRev g => exact hstep g false
  | loadPhase g i => exact h.putGroup (h g).2

/-- The action of a firing leaves the claims, and every group in its mode. -/
theorem LineUnit.deliver_claims (u : LineUnit) (x : Action) :
    (u.deliver x).2.lineClaims = u.lineClaims ∧ (u.deliver x).2.triggerClaims = u.triggerClaims ∧
      ∀ g, ((u.deliver x).2.groups.get g).mode = (u.groups.get g).mode := by
  have hput : ∀ g group, group.mode = (u.groups.get g).mode →
      ∀ j, ((u.putGroup g group).groups.get j).mode = (u.groups.get j).mode := by
    intro g group hmode j
    rw [LineUnit.putGroup_groups]
    split
    · next hj => rw [hmode, hj]
    · rfl
  have hstep : ∀ g forward, (u.stepGroup g forward).2.lineClaims = u.lineClaims ∧
      (u.stepGroup g forward).2.triggerClaims = u.triggerClaims ∧
      ∀ j, ((u.stepGroup g forward).2.groups.get j).mode = (u.groups.get j).mode := by
    intro g forward
    unfold LineUnit.stepGroup
    split
    · exact ⟨rfl, rfl, hput _ _ (by rw [Group.stepped_eq])⟩
    · exact ⟨rfl, rfl, fun _ => rfl⟩
  cases x with
  | none => exact ⟨rfl, rfl, fun _ => rfl⟩
  | line op l => exact ⟨rfl, rfl, fun _ => rfl⟩
  | stepFwd g => exact hstep g true
  | stepRev g => exact hstep g false
  | loadPhase g i => exact ⟨rfl, rfl, hput _ _ rfl⟩

end

/-! ### The part -/

/-- The laws of the line unit together. -/
def LineLaws (s : State) : Prop := (∀ e a, s.entry e = some a → s.lines.ServesEntry a) ∧ GroupLaw s.lines

theorem lineLaws_iff (s : State) : LineLaws s ↔ ActionLaw s ∧ GroupLaw s.lines := by
  rw [LineLaws, actionLaw_iff]

section
variable {i : Instr} {p : Port} {s t : State}

theorem LineLaws.of_continues (hs : LineLaws s) (h : s.Continues t) (hl : t.lines = s.lines) : LineLaws t := by
  obtain ⟨hserves, hgroup⟩ := hs
  rw [LineLaws, hl]
  refine ⟨fun e b hb => ?_, hgroup⟩
  obtain ⟨a, ha, hab⟩ := h.of_some hb
  exact (hserves e a ha).continues hab

theorem LineLaws.of_entries (hs : LineLaws s) (he : t.entries = s.entries) (hl : t.lines = s.lines) : LineLaws t :=
  hs.of_continues (.of_entries he) hl

/-- A change of the line unit that serves every record it served before. -/
theorem LineLaws.of_lines {u : LineUnit} (hs : LineLaws s) (hgroup : GroupLaw u)
    (hserves : ∀ e a, s.entry e = some a → s.lines.ServesEntry a → u.ServesEntry a) :
    LineLaws { s with lines := u } :=
  ⟨fun e a ha => hserves e a ha (hs.1 e a ha), hgroup⟩

/-- A change of levels, tables, indices, positions and limits alone. -/
theorem LineLaws.of_groups {u : LineUnit} (hs : LineLaws s) (hgroup : GroupLaw u)
    (hlines : u.lineClaims = s.lines.lineClaims) (htriggers : u.triggerClaims = s.lines.triggerClaims)
    (hmode : ∀ g, (u.groups.get g).mode = (s.lines.groups.get g).mode) : LineLaws { s with lines := u } :=
  hs.of_lines hgroup fun _ _ _ h =>
    h.of_claims hmode (fun _ _ hl => by rwa [hlines]) fun _ _ hk => by rwa [htriggers]

theorem LineLaws.setEntry {e : EntryId} {b : Entry} (hs : LineLaws s) (hb : s.lines.ServesEntry b) :
    LineLaws (s.setEntry e (some b)) := by
  refine ⟨fun x a ha => ?_, hs.2⟩
  rw [State.entry_setEntry] at ha
  split at ha
  · cases ha
    exact hb
  · exact hs.1 x a ha

theorem LineLaws.of_free (h : ∀ e, t.entry e = none) (hl : t.lines = LineUnit.initial) : LineLaws t :=
  ⟨fun e a ha => (by rw [h] at ha; cases ha), hl ▸ groupLaw_initial⟩

/-- RETIRE keeps of every other record what it needs. -/
theorem LineLaws.retire {e : EntryId} {a : Entry} (hs : LineLaws s) : LineLaws (s.retireEntry e a) := by
  refine ⟨fun x c hc => ?_, hs.2⟩
  rw [State.entry_retireEntry] at hc
  split at hc
  · cases hc
  · obtain ⟨b, hb, hbc⟩ := Option.map_eq_some_iff.1 hc
    have hserves : s.lines.ServesEntry b := hs.1 x b hb
    split at hbc
    · subst hbc
      unfold Entry.unchain
      split
      · exact ⟨hserves.action, hserves.staged, hserves.trigger⟩
      · exact hserves
    · exact hbc ▸ hserves

/-! ### CLAIM and RELEASE -/

theorem LineUnit.allLines_iff (u : LineUnit) (mask : BitVec 16) (test : Option Port → Bool) :
    u.allLines mask test = true ↔ ∀ l : Fin 16, mask.getLsbD l.val = true → test (u.lineClaims.get l) = true := by
  simp only [LineUnit.allLines, List.all_eq_true, List.mem_finRange, true_imp_iff, Bool.or_eq_true,
    Bool.not_eq_true']
  exact forall_congr' fun l => by cases mask.getLsbD l.val <;> simp

theorem LineUnit.allTriggers_iff (u : LineUnit) (mask : BitVec 8) (test : Option Port → Bool) :
    u.allTriggers mask test = true ↔ ∀ k : Fin 8, mask.getLsbD k.val = true → test (u.triggerClaims.get k) = true := by
  simp only [LineUnit.allTriggers, List.all_eq_true, List.mem_finRange, true_imp_iff, Bool.or_eq_true,
    Bool.not_eq_true']
  exact forall_congr' fun k => by cases mask.getLsbD k.val <;> simp

theorem LineUnit.claim_groups (u : LineUnit) (p : Port) (l : BitVec 16) (k : BitVec 8) :
    (u.claim p l k).groups = u.groups := by rw [LineUnit.claim]

theorem LineUnit.claim_levels (u : LineUnit) (p : Port) (l : BitVec 16) (k : BitVec 8) :
    (u.claim p l k).levels = u.levels := by rw [LineUnit.claim]

/-- CLAIM takes no line or trigger from the other port. -/
theorem LineLaws.claim (hs : LineLaws s) {l : BitVec 16} {k : BitVec 8}
    (hl : s.lines.allLines l (· != some p.other) = true) (hk : s.lines.allTriggers k (· != some p.other) = true) :
    LineLaws { s with lines := s.lines.claim p l k } := by
  have hport : ∀ (claim : Option Port) (q : Port), claim ≠ some p.other → claim = some q → some p = some q := by
    intro claim q hne hq
    subst hq
    by_cases hqp : q = p
    · rw [hqp]
    · exact absurd (congrArg some ((Port.ne_iff _ _).1 hqp)) hne
  have hgroup : GroupLaw (s.lines.claim p l k) :=
    hs.2.of_levels (s.lines.claim_groups p l k) fun j _ => by rw [LineUnit.claim_levels]
  refine hs.of_lines hgroup fun e a _ h =>
    h.of_claims (fun g => by rw [LineUnit.claim_groups]) (fun m _ hm => ?_) fun m _ hm => ?_
  · simp only [LineUnit.claim, get_ofFn]
    split
    · next hmask => exact hport _ _ (by simpa using (LineUnit.allLines_iff _ _ _).1 hl m hmask) hm
    · exact hm
  · simp only [LineUnit.claim, get_ofFn]
    split
    · next hmask => exact hport _ _ (by simpa using (LineUnit.allTriggers_iff _ _ _).1 hk m hmask) hm
    · exact hm

theorem actionNeedsLine_iff (x : Action) (mask : BitVec 16) :
    actionNeedsLine x mask = true ↔ ∃ l : Fin 16, mask.getLsbD l.val = true ∧ x.NeedsLine l := by
  simp [actionNeedsLine, Action.NeedsLine]

/-- What a record needs, said line by line and trigger by trigger. -/
theorem Entry.needs_iff (a : Entry) (l : BitVec 16) (k : BitVec 8) :
    a.needs l k = true ↔
      (∃ m : Fin 16, l.getLsbD m.val = true ∧ (a.action.NeedsLine m ∨ (a.staged.action.getD .none).NeedsLine m)) ∨
        ∃ m : Fin 8, k.getLsbD m.val = true ∧ a.trigger = some m := by
  have htrigger : a.needs l k = true ↔
      actionNeedsLine a.action l = true ∨ actionNeedsLine (a.staged.action.getD .none) l = true ∨
        ∃ m : Fin 8, k.getLsbD m.val = true ∧ a.trigger = some m := by
    unfold Entry.needs
    cases a.trigger <;> simp [or_assoc]
  rw [htrigger, actionNeedsLine_iff, actionNeedsLine_iff, ← or_assoc, ← exists_or]
  simp only [and_or_left]

@[simp] theorem State.releaseClaims_lineClaims (s : State) (l : BitVec 16) (k : BitVec 8) (m : Fin 16) :
    (s.releaseClaims l k).lines.lineClaims.get m =
      if l.getLsbD m.val then none else s.lines.lineClaims.get m :=
  get_ofFn _ _

@[simp] theorem State.releaseClaims_triggerClaims (s : State) (l : BitVec 16) (k : BitVec 8) (m : Fin 8) :
    (s.releaseClaims l k).lines.triggerClaims.get m =
      if k.getLsbD m.val then none else s.lines.triggerClaims.get m :=
  get_ofFn _ _

@[simp] theorem State.releaseClaims_groups (s : State) (l : BitVec 16) (k : BitVec 8) :
    (s.releaseClaims l k).lines.groups = s.lines.groups := by rw [State.releaseClaims]

@[simp] theorem State.releaseClaims_levels (s : State) (l : BitVec 16) (k : BitVec 8) :
    (s.releaseClaims l k).lines.levels = s.lines.levels := by rw [State.releaseClaims]

/-- A release keeps the laws when no record needs what it releases of its own port's. -/
theorem LineLaws.releaseClaims (hs : LineLaws s) {l : BitVec 16} {k : BitVec 8}
    (hline : ∀ e a m, s.entry e = some a → a.action.NeedsLine m ∨ (a.staged.action.getD .none).NeedsLine m →
      s.lines.lineClaims.get m = some a.owner → l.getLsbD m.val = false)
    (htrigger : ∀ e a m, s.entry e = some a → a.trigger = some m → s.lines.triggerClaims.get m = some a.owner →
      k.getLsbD m.val = false) : LineLaws (s.releaseClaims l k) := by
  refine ⟨fun e a ha => ?_, hs.2.of_levels (s.releaseClaims_groups l k) fun j _ => by rw [State.releaseClaims_levels]⟩
  have ha : s.entry e = some a := by
    rwa [State.entry, State.releaseClaims_entries] at ha
  refine (hs.1 e a ha).of_claims (fun g => by rw [State.releaseClaims_groups]) (fun m hm hclaim => ?_) fun m hm hclaim => ?_
  · rw [State.releaseClaims_lineClaims, hline e a m ha hm hclaim]
    exact hclaim
  · rw [State.releaseClaims_triggerClaims, htrigger e a m ha hm hclaim]
    exact hclaim

/-- RELEASE releases what its port claims and none of its entries needs (R58). -/
theorem LineLaws.release (hs : LineLaws s) {l : BitVec 16} {k : BitVec 8}
    (hl : s.lines.allLines l (· == some p) = true) (hk : s.lines.allTriggers k (· == some p) = true)
    (hneeds : s.anyEntry (fun a => a.owner == p && a.needs l k) = false) : LineLaws (s.releaseClaims l k) := by
  have hfree : ∀ e a, s.entry e = some a → a.owner = p → a.needs l k = false := by
    intro e a ha ho
    refine Classical.byContradiction fun hn => ?_
    refine Bool.eq_false_iff.1 hneeds ((s.anyEntry_iff _).2 ⟨e, a, ha, ?_⟩)
    simpa [ho] using hn
  refine hs.releaseClaims (fun e a m ha hm hclaim => ?_) fun e a m ha hm hclaim => ?_
  · refine Classical.byContradiction fun hmask => ?_
    rw [Bool.not_eq_false] at hmask
    have hp := (LineUnit.allLines_iff _ _ _).1 hl m hmask
    rw [hclaim, beq_iff_eq, Option.some.injEq] at hp
    exact Bool.eq_false_iff.1 (hfree e a ha hp) ((a.needs_iff l k).2 (.inl ⟨m, hmask, hm⟩))
  · refine Classical.byContradiction fun hmask => ?_
    rw [Bool.not_eq_false] at hmask
    have hp := (LineUnit.allTriggers_iff _ _ _).1 hk m hmask
    rw [hclaim, beq_iff_eq, Option.some.injEq] at hp
    exact Bool.eq_false_iff.1 (hfree e a ha hp) ((a.needs_iff l k).2 (.inr ⟨m, hmask, hm⟩))

/-! ### EVICT and LEAVE -/

/-- A mask put together bit by bit has the bits that its test picks. -/
theorem getLsbD_foldl_twoPow {w : Nat} (test : Fin w → Prop) [DecidablePred test] (l : List (Fin w)) (start : BitVec w)
    (j : Fin w) :
    (l.foldl (fun m i => if test i then m ||| BitVec.twoPow w i.val else m) start).getLsbD j.val =
      (start.getLsbD j.val || decide (j ∈ l ∧ test j)) := by
  induction l generalizing start with
  | nil => simp
  | cons i l ih =>
    rw [List.foldl_cons, ih]
    by_cases ht : test i
    · rw [if_pos ht, BitVec.getLsbD_or, BitVec.getLsbD_twoPow]
      by_cases hij : j = i
      · subst hij
        simp [ht]
      · have hval : ¬ i.val = j.val := fun h => hij (Fin.ext h.symm)
        simp [hij, hval]
    · rw [if_neg ht]
      have hij : test j → j ≠ i := fun hj h => ht (h ▸ hj)
      by_cases hj : test j <;> simp [hj, hij]

theorem LineUnit.getLsbD_lineMask (u : LineUnit) (p : Port) (l : Fin 16) :
    (u.lineMask p).getLsbD l.val = decide (u.lineClaims.get l = some p) := by
  rw [LineUnit.lineMask, getLsbD_foldl_twoPow fun l => u.lineClaims.get l = some p]
  simp

theorem LineUnit.getLsbD_triggerMask (u : LineUnit) (p : Port) (k : Fin 8) :
    (u.triggerMask p).getLsbD k.val = decide (u.triggerClaims.get k = some p) := by
  rw [LineUnit.triggerMask, getLsbD_foldl_twoPow fun k => u.triggerClaims.get k = some p]
  simp

theorem State.entry_retireLink (s : State) (e : EntryId) :
    s.retireLink.entry e = if ownedBy .link (s.entry e) then none else s.entry e :=
  get_map _ _ _

theorem LineLaws.clearLink (hs : LineLaws s) : LineLaws s.clearLink := by
  have hretired : LineLaws s.retireLink := by
    refine ⟨fun e a ha => ?_, hs.2⟩
    rw [State.entry_retireLink] at ha
    split at ha
    · cases ha
    · exact hs.1 e a ha
  have hspi : ∀ e a, s.retireLink.entry e = some a → a.owner ≠ .link := by
    intro e a ha ho
    rw [State.entry_retireLink] at ha
    split at ha
    · cases ha
    · next hnot => exact hnot (by rw [ha, ownedBy_some, ho])
  have hreleased := hretired.releaseClaims (l := s.retireLink.lines.lineMask .link)
    (k := s.retireLink.lines.triggerMask .link)
    (fun e a m ha _ hclaim => by
      rw [LineUnit.getLsbD_lineMask, decide_eq_false_iff_not, hclaim, Option.some.injEq]
      exact hspi e a ha)
    (fun e a m ha _ hclaim => by
      rw [LineUnit.getLsbD_triggerMask, decide_eq_false_iff_not, hclaim, Option.some.injEq]
      exact hspi e a ha)
  exact hreleased.of_entries rfl rfl

/-! ### The line and group commands -/

theorem LineUnit.anySequence_iff (u : LineUnit) (mask : BitVec 16) :
    u.anySequence mask = true ↔ ∃ l : Fin 16, mask.getLsbD l.val = true ∧ (u.groups.get (groupOf l)).mode = .sequence := by
  simp [LineUnit.anySequence]

theorem LineUnit.write_levels (u : LineUnit) (w : LineWrite) (l : Fin 16) :
    (u.write w).levels.getLsbD l.val = if w.mask.getLsbD l.val then w.levels.getLsbD l.val else u.levels.getLsbD l.val := by
  simp only [LineUnit.write, BitVec.getLsbD_or, BitVec.getLsbD_and, BitVec.getLsbD_not]
  cases w.mask.getLsbD l.val <;> simp

theorem LineUnit.write_drives (u : LineUnit) (w : LineWrite) (l : Fin 16) :
    (u.write w).drives.getLsbD l.val = if w.mask.getLsbD l.val then w.drives.getLsbD l.val else u.drives.getLsbD l.val := by
  simp only [LineUnit.write, BitVec.getLsbD_or, BitVec.getLsbD_and, BitVec.getLsbD_not]
  cases w.mask.getLsbD l.val <;> simp

theorem LineLaws.setLines (hs : LineLaws s) {w : LineWrite} (h : s.lines.anySequence w.mask = false) :
    LineLaws { s with lines := s.lines.write w } := by
  refine hs.of_groups (hs.2.of_levels rfl fun j hj => groupLevels_congr fun l hl => ?_) rfl rfl fun _ => rfl
  rw [LineUnit.write_levels]
  split
  · next hmask => exact absurd ((s.lines.anySequence_iff _).2 ⟨l, hmask, by rwa [hl]⟩) (Bool.eq_false_iff.1 h)
  · rfl

/-- A group put or set in place with its mode kept. -/
theorem LineLaws.putGroup (hs : LineLaws s) {g : Fin 4} {group : Group} (hmode : group.mode = (s.lines.groups.get g).mode)
    (hlimits : withinLimits group.limits group.position = true) :
    LineLaws { s with lines := s.lines.putGroup g group } := by
  refine hs.of_groups (hs.2.putGroup hlimits) rfl rfl fun j => ?_
  rw [LineUnit.putGroup_groups]
  split
  · next hj => rw [hmode, hj]
  · rfl

theorem LineLaws.setGroup (hs : LineLaws s) {g : Fin 4} {group : Group} (hmode : group.mode = (s.lines.groups.get g).mode)
    (hpattern : group.pattern = (s.lines.groups.get g).pattern)
    (hlimits : withinLimits group.limits group.position = true) :
    LineLaws { s with lines := s.lines.setGroup g group } := by
  refine hs.of_groups (hs.2.setGroup hmode hpattern hlimits) rfl rfl fun j => ?_
  rw [LineUnit.setGroup_groups]
  split
  · next hj => rw [hmode, hj]
  · rfl

/-- GROUP_MODE changes the mode where no action bars it. -/
theorem LineLaws.groupMode (hs : LineLaws s) {g : Fin 4} {m : GroupMode}
    (h : s.anyEntry (fun a => a.bars g m) = false) :
    LineLaws { s with lines := s.lines.putGroup g { s.lines.groups.get g with mode := m } } := by
  have hmode : ∀ j, ((s.lines.putGroup g { s.lines.groups.get g with mode := m }).groups.get j).mode =
      if j = g then m else (s.lines.groups.get j).mode := by
    intro j
    rw [LineUnit.putGroup_groups]
    split <;> rfl
  refine hs.of_lines (hs.2.putGroup (hs.2 g).2) fun e a ha hserves => ?_
  have hbars : a.bars g m = false := by
    refine Classical.byContradiction fun hb => ?_
    exact Bool.eq_false_iff.1 h ((s.anyEntry_iff _).2 ⟨e, a, ha, by simpa using hb⟩)
  rw [Entry.bars, Bool.or_eq_false_iff] at hbars
  obtain ⟨haction, hstaged⟩ := hbars
  exact ⟨⟨LineUnit.claimsAction_of hserves.action.1 fun _ _ hl => hl,
      LineUnit.modeAdmits_of_mode hserves.action.2 haction hmode⟩,
    ⟨LineUnit.claimsAction_of hserves.staged.1 fun _ _ hl => hl,
      LineUnit.modeAdmits_of_mode hserves.staged.2 hstaged hmode⟩,
    hserves.trigger⟩

/-- A position written within the limits, or left where it was, lies within them (R68). -/
theorem withinLimits_write {g : Group} {w : GroupWrite} (hold : withinLimits g.limits g.position = true)
    (h : positionAllowed g.limits w.position = true) : withinLimits (g.write w).limits (g.write w).position = true := by
  unfold Group.write
  unfold positionAllowed at h
  cases hw : w.position with
  | none => exact hold
  | some x => rwa [hw] at h

theorem Effect.keeps_lineLaws (h : Effect i p s t) (hs : LineLaws s) : LineLaws t := by
  cases h with
  | reset c sdi => exact .of_free (s.entry_commandReset sdi) rfl
  | alloc e => exact hs.setEntry ⟨s.lines.serves_none _, s.lines.serves_none _, rfl⟩
  | retire e a => exact hs.retire
  | config e a f he ho hrepark hchain hidle hmode haction htrigger =>
    have hserves := hs.1 e a he
    subst ho
    exact hs.setEntry ⟨⟨haction, hmode⟩, hserves.staged, htrigger⟩
  | stage e a w he ho hmode haction =>
    have hserves := hs.1 e a he
    subst ho
    exact hs.setEntry ⟨hserves.action, ⟨haction, hmode⟩, hserves.trigger⟩
  | move e a b he hab => exact hs.of_continues (.move he hab) (by rw [State.move_frame])
  | give e a he ho hroom hchain htarget hclaims =>
    have hserves := hs.1 e a he
    obtain ⟨haction, hstaged, htrigger⟩ := (s.lines.claimsEntry_iff _ _).1 hclaims
    exact (hs.setEntry (e := e) (b := { a with owner := p.other })
      ⟨⟨haction, hserves.action.2⟩, ⟨hstaged, hserves.staged.2⟩, htrigger⟩).of_entries rfl rfl
  | evict => exact hs.clearLink.of_entries rfl rfl
  | leave => exact hs.clearLink
  | claim l k hl hk => exact hs.claim hl hk
  | release l k hl hk hneeds => exact hs.release hl hk hneeds
  | setLines w hw => exact hs.setLines hw
  | groupMode g m hbars => exact hs.groupMode hbars
  | loadPhases g table => exact hs.putGroup rfl (hs.2 g).2
  | setGroup g w hpos =>
    have hlimits := withinLimits_write (hs.2 g).2 hpos
    cases hw : w.index with
    | some x => exact hs.putGroup rfl hlimits
    | none =>
      refine hs.setGroup rfl ?_ hlimits
      simp [Group.write, Group.pattern, hw]
  | setLimits g limits hpos => exact hs.setGroup rfl rfl hpos
  | setTime c t => exact hs.of_continues (.setTime s t) rfl
  | _ => exact hs.of_entries rfl rfl

theorem LineLaws.fireEntry {e : EntryId} {a : Entry} (hs : LineLaws s) (he : s.entry e = some a) (due : Word) :
    LineLaws (s.fireEntry e a due) := by
  obtain ⟨u, hmoves, hu⟩ := State.fireEntry_moves he due
  obtain ⟨hlines, htriggers, hmode⟩ := s.lines.deliver_claims a.action
  have hdelivered : LineLaws { s with lines := (s.lines.deliver a.action).2 } :=
    hs.of_groups (hs.2.deliver (hs.1 e a he).action.2) hlines htriggers hmode
  have hlaw : LineLaws u := hdelivered.of_continues hmoves.continues (by rw [hmoves.frame])
  obtain hu | ⟨flags, hu⟩ := hu
  · rwa [hu]
  · rw [hu]
    exact hlaw.of_entries rfl rfl

theorem Occurs.keeps_lineLaws (h : Occurs i s t) (hs : LineLaws s) : LineLaws t := by
  cases h with
  | fire e a due h =>
    exact (hs.fireEntry h.record due).of_entries (State.settleLink_entries _) (State.settleLink_lines _)
  | tick n => exact hs.of_entries (by rw [State.cycles_frame]) (by rw [State.cycles_frame])
  | edge k =>
    obtain ⟨r, -, hmoves⟩ := s.takeEdge_moves k
    exact hs.of_continues hmoves.continues (by rw [hmoves.frame]; rfl)
  | powerOn | nresetAssert => exact .of_free (s.entry_resetBlocks .pin s.link) rfl
  | falseStart | gap | transmissionEnd =>
    exact hs.of_entries (State.settleLink_entries _) (State.settleLink_lines _)
  | character =>
    refine hs.of_entries ?_ ?_
    · rw [State.settleLink_entries, State.examine_frame]
    · rw [State.settleLink_lines, State.examine_frame]
  | transmissionBegin rxd =>
    exact hs.of_entries (by rw [State.beginSending_frame]; rfl) (by rw [State.beginSending_frame]; rfl)
  | pendingInForce => exact hs.of_entries (by rw [State.settlePending_frame]) (by rw [State.settlePending_frame])
  | _ => exact hs.of_entries rfl rfl

theorem lineLaws_kept : Kept LineLaws where
  pending _ _ h := h.of_entries rfl rfl
  emptySlot _ _ h := h.of_entries rfl rfl
  reply s src r h := by cases src <;> exact h.of_entries rfl rfl
  settleLink s h := h.of_entries s.settleLink_entries s.settleLink_lines
  effect _ _ _ _ heffect h := heffect.keeps_lineLaws h
  event _ _ _ hoccurs h := hoccurs.keeps_lineLaws h
  refCycle s h := h.of_entries s.refCycle_entries (by rw [State.refCycle_frame])

end

end Sys2Proof.Machine

namespace Sys2Proof.Proofs
open Sys2Proof.Machine

/-- Settles O57: what each record needs stays served, and each group stays shown, under every effect and event. -/
theorem lineLawsKept : Obligations.LineLawsKept := by
  intro s t haction hgroup h
  exact (lineLaws_iff t).1 (lineLaws_kept.step ((lineLaws_iff s).2 ⟨haction, hgroup⟩) h)

end Sys2Proof.Proofs
end

section
/-!
PROOFS. The laws of the link port (Table 9.1, R171, R175): the ranges and the slots are kept by everything that can
happen, and settling the link gives the rest.
-/
namespace Sys2Proof.Machine

/-! ### Ranges of the port -/

/-- Address, settings, pending settings and idle count of the port lie in their ranges (Table 9.1). -/
structure LinkPort.Ranged (k : LinkPort) : Prop where
  address : k.address ≠ 0
  inForce : k.settings.inRange
  waiting : ∀ w, k.pendingSettings = some w → w.inRange
  idle : k.idleCount ≤ k.settings.q.toNat

section
variable {k k' : LinkPort}

theorem LinkPort.idleCount_of_zero (h : k.idleSamples = 0) (n : Nat) : k.idleCount ≤ n := by
  simp [LinkPort.idleCount, h]

theorem LinkPort.Ranged.of_settings (h : k.Ranged) (haddress : k'.address = k.address)
    (hsettings : k'.settings = k.settings) (hpending : k'.pendingSettings = k.pendingSettings)
    (hidle : k'.idleCount ≤ k.settings.q.toNat) : k'.Ranged where
  address := haddress ▸ h.address
  inForce := hsettings ▸ h.inForce
  waiting := hpending ▸ h.waiting
  idle := hsettings ▸ hidle

theorem LinkPort.Ranged.hear (h : k.Ranged) (rxd : List Bool) : (k.hear rxd).Ranged :=
  h.of_settings (k.hear_address rxd) (k.hear_settings rxd) (k.hear_pendingSettings rxd) (k.hear_idle_le rxd h.idle)

theorem LinkPort.Ranged.endGap (h : k.Ranged) : k.endGap.Ranged := by
  rw [k.endGap_frame]
  exact h.of_settings rfl rfl rfl h.idle

theorem LinkPort.Ranged.applyPending (h : k.Ranged) : k.applyPending.Ranged := by
  unfold LinkPort.applyPending
  split
  · next w hw => exact ⟨h.address, h.waiting w hw, nofun, LinkPort.idleCount_of_zero rfl _⟩
  · exact h

/-- Every reset leaves the port with nothing pending and the idle count at 0. -/
theorem LinkPort.ranged_of_reset (haddress : k.address ≠ 0) (hsettings : k.settings.inRange)
    (hpending : k.pendingSettings = none) (hidle : k.idleSamples = 0) : k.Ranged :=
  ⟨haddress, hsettings, by simp [hpending], LinkPort.idleCount_of_zero hidle _⟩

theorem strapAddress_ne_zero (adr : BitVec 4) : Config.strapAddress adr ≠ 0 := by
  unfold Config.strapAddress
  split
  · decide
  · assumption

theorem inRange_resetSettings {d : BitVec 16} (h : 1 ≤ d.toNat) (h' : d.toNat ≤ 4096) :
    LinkSettings.inRange { d := d, g := Config.gapLimit, q := Config.responseGap } :=
  ⟨h, h', show 16 ≤ Config.gapLimit.toNat by decide, show 2 ≤ Config.responseGap.toNat by decide,
    show Config.responseGap.toNat ≤ 64 by decide⟩

theorem LinkPort.ranged_strapped (adr : BitVec 4) (lspd : BitVec 2) : (LinkPort.strapped adr lspd).Ranged := by
  refine LinkPort.ranged_of_reset (strapAddress_ne_zero adr) ?_ rfl rfl
  have hdivisor : ∀ l : BitVec 2, 1 ≤ (Config.strapDivisor l).toNat ∧ (Config.strapDivisor l).toNat ≤ 4096 := by decide
  obtain ⟨hlow, hhigh⟩ := hdivisor lspd
  exact inRange_resetSettings hlow hhigh

end

/-! ### Slots and transmitter -/

theorem State.transmitter_of_hears (s : State) (h : s.hears = true) : s.link.transmitter = .quiet :=
  beq_iff_eq.1 (Bool.and_eq_true_iff.1 h).2

/-- The part of the link laws that holds within an event too: the ranges, one filled slot at most, and a response being
sent in its slot with the receiver at rest (R125, R126, R172). -/
structure LinkBase (s : State) : Prop where
  ranged : s.link.Ranged
  oneSlot : s.ctl.commands.link = none ∨ s.ctl.responses.link = none
  sending : ∀ what chars sent, s.link.transmitter = .sending what chars sent →
    s.link.receiver = .hunting ∧ s.link.insideChar = false ∧
      (what = .response → s.ctl.responses.link.isSome = true)

section
variable {i : Instr} {p : Port} {s t : State}

theorem LinkLaw.base (h : LinkLaw s) : LinkBase s :=
  ⟨⟨h.address, h.inForce, h.waiting, h.idle⟩, h.oneSlot, h.sending⟩

theorem LinkBase.law (h : LinkBase s) (hsettled : s.link.pendingSettings.isSome = true → s.linkIdle = false)
    (hbegun : s.sendDue = false) : LinkLaw s :=
  ⟨h.oneSlot, h.sending, hsettled, hbegun, h.ranged.address, h.ranged.inForce, h.ranged.waiting, h.ranged.idle⟩

theorem LinkBase.congr (h : LinkBase s) (hl : t.link = s.link) (hc : t.ctl.commands.link = s.ctl.commands.link)
    (hr : t.ctl.responses.link = s.ctl.responses.link) : LinkBase t := by
  constructor
  · rw [hl]
    exact h.ranged
  · rw [hc, hr]
    exact h.oneSlot
  · rw [hl, hr]
    exact h.sending

theorem LinkBase.of_quiet {k : LinkPort} (h : LinkBase s) (hranged : k.Ranged) (hquiet : k.transmitter = .quiet) :
    LinkBase { s with link := k } :=
  ⟨hranged, h.oneSlot, fun what chars sent hs => by cases hquiet.symm.trans hs⟩

/-- A port with nothing pending and the idle count at 0 has nothing to bring into force or to begin. -/
theorem LinkBase.law_of_reset (h : LinkBase s) (hpending : s.link.pendingSettings = none)
    (hidle : s.link.idleSamples = 0) : LinkLaw s := by
  obtain ⟨-, -, -, hq, -⟩ := h.ranged.inForce
  refine h.law (by simp [hpending]) ?_
  have hready : s.link.lineReady = false := by
    have hcount : ¬ s.link.settings.q.toNat ≤ s.link.idleCount := by
      have hzero := LinkPort.idleCount_of_zero hidle 0
      omega
    simp [LinkPort.lineReady, hcount]
  simp [State.sendDue, hready]

/-- A port that heard samples, whatever they make of its receiver. -/
theorem LinkBase.of_heard (h : LinkBase s) (hhears : s.hears = true) (rxd : List Bool) {k : LinkPort}
    (haddress : k.address = (s.link.hear rxd).address) (hsettings : k.settings = (s.link.hear rxd).settings)
    (hpending : k.pendingSettings = (s.link.hear rxd).pendingSettings)
    (hidle : k.idleSamples = (s.link.hear rxd).idleSamples)
    (hquiet : k.transmitter = (s.link.hear rxd).transmitter) : LinkBase { s with link := k } := by
  refine h.of_quiet ((h.ranged.hear rxd).of_settings haddress hsettings hpending ?_) ?_
  · rw [LinkPort.idleCount, hidle]
    exact (h.ranged.hear rxd).idle
  · rw [hquiet, LinkPort.hear_transmitter]
    exact s.transmitter_of_hears hhears

/-- What has not changed the link, its slots and the marker request has not changed the laws. -/
theorem LinkLaw.congr (h : LinkLaw s) (hl : t.link = s.link) (hc : t.ctl.commands.link = s.ctl.commands.link)
    (hr : t.ctl.responses.link = s.ctl.responses.link) (hm : t.notices.marker = s.notices.marker) : LinkLaw t := by
  refine (h.base.congr hl hc hr).law ?_ ?_
  · simpa only [State.linkIdle, hl, hc, hr, hm] using h.settled
  · simpa only [State.sendDue, hl, hr, hm] using h.begun

/-! ### Settling the link -/

theorem LinkBase.settlePending (h : LinkBase s) : LinkBase s.settlePending := by
  unfold State.settlePending
  split
  · refine ⟨h.ranged.applyPending, h.oneSlot, ?_⟩
    simpa using h.sending
  · exact h

theorem LinkBase.beginSending (h : LinkBase s) : LinkBase s.beginSending := by
  have hrest : s.link.lineReady = true → s.link.receiver = .hunting ∧ s.link.insideChar = false := by
    intro hready
    simp only [LinkPort.lineReady, LinkPort.lineFree, Bool.and_eq_true, beq_iff_eq, Bool.not_eq_true'] at hready
    obtain ⟨⟨⟨hreceiver, hinside⟩, -⟩, -⟩ := hready
    exact ⟨hreceiver, hinside⟩
  have hranged : ∀ what bytes, (s.link.send what bytes).Ranged := fun _ _ => h.ranged.of_settings rfl rfl rfl h.ranged.idle
  obtain ⟨-, hs⟩ | ⟨hready, r, hr, hs⟩ | ⟨hready, -, -, hs⟩ := s.beginSending_outcome <;> rw [hs]
  · exact h
  · obtain ⟨hreceiver, hinside⟩ := hrest hready
    exact ⟨hranged _ _, h.oneSlot, fun _ _ _ _ => ⟨hreceiver, hinside, fun _ => by simp [hr]⟩⟩
  · obtain ⟨hreceiver, hinside⟩ := hrest hready
    refine ⟨hranged _ _, h.oneSlot, fun what chars sent hs => ⟨hreceiver, hinside, ?_⟩⟩
    cases hs
    nofun

/-- The arbiter never leaves the link idle where it was busy. -/
theorem State.linkIdle_beginSending (h : s.linkIdle = false) : s.beginSending.linkIdle = false := by
  obtain ⟨-, hs⟩ | ⟨-, r, -, hs⟩ | ⟨-, -, -, hs⟩ := s.beginSending_outcome <;> rw [hs]
  · exact h
  all_goals simp [State.linkIdle, LinkPort.lineFree, LinkPort.send]

/-- Pending settings never wait on an idle link that has been settled (R175). -/
theorem State.settled_settleLink (s : State) (h : s.settleLink.link.pendingSettings.isSome = true) :
    s.settleLink.linkIdle = false := by
  cases hidle : s.linkIdle with
  | true =>
    rw [State.settleLink_idle hidle] at h
    simp at h
  | false =>
    rw [State.settleLink_busy hidle]
    exact State.linkIdle_beginSending hidle

theorem LinkBase.settleLink (h : LinkBase s) : LinkLaw s.settleLink :=
  h.settlePending.beginSending.law s.settled_settleLink s.sendDue_settleLink

/-- Where the laws hold there is nothing to bring into force. -/
theorem LinkLaw.settlePending_eq (h : LinkLaw s) : s.settlePending = s := by
  unfold State.settlePending
  split
  · next hidle =>
    have hnone : s.link.pendingSettings = none := by
      refine Classical.byContradiction fun hsome => ?_
      exact Bool.false_ne_true ((h.settled (Option.isSome_iff_ne_none.2 hsome)).symm.trans hidle)
    rw [LinkPort.applyPending, hnone]
  · rfl

/-! ### The take of a command -/

/-- An effect fills no command slot. -/
theorem Effect.emptied {q : Port} (h : Effect i p s t) (hq : s.ctl.commands.get q = .none) :
    t.ctl.commands.get q = .none := by
  cases h with
  | reset => cases q <;> rfl
  | evict =>
    cases q with
    | spi => exact hq
    | link => rfl
  | move e a b => rwa [State.move_frame]
  | _ => exact hq

theorem Effect.keeps_linkBase (h : Effect i p s t) (hs : LinkBase s) : LinkBase t := by
  cases h with
  | reset c sdi =>
    exact ⟨LinkPort.ranged_of_reset hs.ranged.address hs.ranged.inForce rfl rfl, .inl rfl, nofun⟩
  | evict =>
    refine ⟨hs.ranged, .inl rfl, fun what chars sent hsend => ?_⟩
    have hsend : s.link.transmitter = .sending what chars sent := hsend
    obtain ⟨hreceiver, hinside, hfilled⟩ := hs.sending what chars sent hsend
    refine ⟨hreceiver, hinside, ?_⟩
    rintro rfl
    simpa [State.discardLinkSlots, PerPort.set, hsend, State.clearLink, State.retireLink] using hfilled rfl
  | linkConfig w hw =>
    refine ⟨⟨hs.ranged.address, hs.ranged.inForce, fun x hx => ?_, hs.ranged.idle⟩, hs.oneSlot, hs.sending⟩
    cases hx
    exact hw
  | linkStatus => exact ⟨hs.ranged.of_settings rfl rfl rfl hs.ranged.idle, hs.oneSlot, hs.sending⟩
  | move e a b => exact hs.congr (by rw [State.move_frame]) (by rw [State.move_frame]) (by rw [State.move_frame])
  | _ => exact hs.congr rfl rfl rfl

/-- A response goes into a link slot whose command has been taken. -/
theorem LinkBase.reply {src : Source} (hs : LinkBase s) (hempty : s.ctl.commands.get src.port = none) (r : Response) :
    LinkBase (s.reply src r) := by
  cases src with
  | spi => exact hs.congr rfl rfl rfl
  | link =>
    refine ⟨hs.ranged, .inl hempty, fun what chars sent hsend => ?_⟩
    obtain ⟨hreceiver, hinside, -⟩ := hs.sending what chars sent hsend
    exact ⟨hreceiver, hinside, fun _ => rfl⟩
  | broadcast => exact hs

theorem LinkBase.emptySlot (hs : LinkBase s) (q : Port) : LinkBase (s.emptySlot q) := by
  cases q with
  | spi => exact hs.congr rfl rfl rfl
  | link => exact ⟨hs.ranged, .inl rfl, hs.sending⟩

theorem LinkBase.finish {code : Byte} {c : Cmd} {a : Answer} (hs : LinkBase s)
    (h : Executes i c.src.port (during s c) a) : LinkLaw (a.finish code c) := by
  have hduring : LinkBase (during s c) := hs.emptySlot _
  have hempty : (during s c).ctl.commands.get c.src.port = none := by simp
  obtain ⟨r, -, rfl⟩ | ⟨-, heffect⟩ := h
  · exact (hduring.reply hempty _).settleLink
  · exact ((heffect.keeps_linkBase hduring).reply (heffect.emptied hempty) _).settleLink

/-! ### Events and cycles -/

theorem LinkBase.endSending (hs : LinkBase s) (what : SentFrame) : LinkBase (s.endSending what) := by
  refine ⟨hs.ranged.of_settings rfl rfl rfl (LinkPort.idleCount_of_zero rfl _), ?_, nofun⟩
  cases what with
  | response => exact .inr rfl
  | marker => exact hs.oneSlot

/-- A frame that is judged enters the command slot only where neither link slot is filled (R168). -/
theorem LinkBase.judgeLink (hs : LinkBase s) (hquiet : s.link.transmitter = .quiet) (broadcast : Bool)
    (frame : List Byte) : LinkBase (s.judgeLink broadcast frame) := by
  have hranged : ∀ {k : LinkPort}, k.address = s.link.address → k.settings = s.link.settings →
      k.pendingSettings = s.link.pendingSettings → k.idleSamples = s.link.idleSamples → k.Ranged := fun ha hset hp hi =>
    hs.ranged.of_settings ha hset hp (by rw [LinkPort.idleCount, hi]; exact hs.ranged.idle)
  unfold State.judgeLink
  split
  · exact hs.of_quiet (hranged rfl rfl rfl rfl) hquiet
  · split
    · exact hs.of_quiet (hranged rfl rfl rfl rfl) hquiet
    · next hfree =>
      simp only [Bool.or_eq_true, not_or, Option.not_isSome_iff_eq_none] at hfree
      obtain ⟨-, hresponse⟩ := hfree
      exact ⟨hranged rfl rfl rfl rfl, .inr hresponse, fun what chars sent h => by cases hquiet.symm.trans h⟩

theorem LinkBase.examine (hs : LinkBase s) (hquiet : s.link.transmitter = .quiet) (data : Byte) (mark stop : Bool) :
    LinkBase (s.examine data mark stop) := by
  have hkept : ∀ (receiver : Receiver) (error : LinkError) (since : Nat),
      LinkBase { s with link := { s.link with receiver := receiver, lastError := error, sinceChar := since } } :=
    fun _ _ _ => hs.of_quiet (hs.ranged.of_settings rfl rfl rfl hs.ranged.idle) hquiet
  unfold State.examine
  split
  · split
    · exact hkept _ _ _
    · exact hs
  · split
    · exact hkept _ _ _
    · split
      · exact hs
      · unfold State.dataChar
        split
        · split
          · exact hkept _ _ _
          · exact hkept _ _ _
        · split
          · exact hs.judgeLink hquiet _ _
          · exact hkept _ _ _

theorem LinkBase.lineCycle (hs : LinkBase s) : LinkBase s.lineCycle := by
  unfold State.lineCycle
  split
  · exact ⟨hs.ranged.of_settings rfl rfl rfl hs.ranged.idle, hs.oneSlot, hs.sending⟩
  · have hdivided : LinkBase { s with link := { s.link with divider := 0 } } :=
      ⟨hs.ranged.of_settings rfl rfl rfl hs.ranged.idle, hs.oneSlot, hs.sending⟩
    unfold State.restPeriod
    split
    · next what chars sent hsend =>
      split
      · refine ⟨hdivided.ranged.of_settings rfl rfl rfl hdivided.ranged.idle, hs.oneSlot, fun what' chars' sent' h => ?_⟩
        cases h
        exact hs.sending what chars sent hsend
      · exact hdivided.endSending what
    · next hquiet =>
      split
      · exact hdivided
      · refine hdivided.of_quiet ((hdivided.ranged.hear [true]).endGap) ?_
        rw [LinkPort.endGap_frame]
        exact hquiet

theorem LinkLaw.refCycle (hs : LinkLaw s) : LinkLaw s.refCycle := by
  unfold State.refCycle
  split
  · have hline : LinkBase s.restInputs.lineCycle := (hs.base.congr (t := s.restInputs) rfl rfl rfl).lineCycle
    refine (hline.congr ?_ ?_ ?_).settleLink <;> rw [State.cycleByCycle_frame]
  · exact hs

theorem Occurs.keeps_linkLaw (h : Occurs i s t) (hs : LinkLaw s) : LinkLaw t := by
  cases h with
  | fire e a due =>
    refine (hs.base.congr ?_ ?_ ?_).settleLink <;> rw [State.fireEntry_frame]
  | tick n => refine hs.congr ?_ ?_ ?_ ?_ <;> rw [State.cycles_frame]
  | edge k =>
    obtain ⟨r, -, hmoves⟩ := s.takeEdge_moves k
    rw [hmoves.frame]
    exact hs.congr rfl rfl rfl rfl
  | powerOn adr lspd low => exact LinkBase.law_of_reset ⟨LinkPort.ranged_strapped adr lspd, .inl rfl, nofun⟩ rfl rfl
  | nresetAssert =>
    have hsettings := inRange_resetSettings hs.inForce.1 hs.inForce.2.1
    exact LinkBase.law_of_reset ⟨LinkPort.ranged_of_reset hs.address hsettings rfl rfl, .inl rfl, nofun⟩ rfl rfl
  | nresetRelease adr lspd =>
    exact LinkBase.law_of_reset ⟨LinkPort.ranged_strapped adr lspd, hs.oneSlot, nofun⟩ rfl rfl
  | startBit rxd h =>
    have hsample : (s.link.hear rxd).sample false = s.link.hear (rxd ++ [false]) := by simp [LinkPort.hear]
    rw [hsample]
    refine LinkBase.law (hs.base.of_heard h (rxd ++ [false]) rfl rfl rfl rfl rfl) (fun _ => ?_) ?_
    · simp [State.linkIdle, LinkPort.lineFree]
    · simp [State.sendDue, LinkPort.lineReady, LinkPort.lineFree]
  | falseStart rxd h =>
    rw [LinkPort.endGap_frame]
    exact LinkBase.settleLink (hs.base.of_heard h rxd rfl rfl rfl rfl rfl)
  | gap rxd h => exact LinkBase.settleLink (hs.base.of_heard h rxd rfl rfl rfl rfl rfl)
  | character rxd data mark stop h =>
    have hquiet : (s.link.charEnds rxd).transmitter = .quiet := by
      rw [LinkPort.charEnds, LinkPort.hear_transmitter]
      exact s.transmitter_of_hears h
    have hends : LinkBase { s with link := s.link.charEnds rxd } := hs.base.of_heard h rxd rfl rfl rfl rfl rfl
    exact (hends.examine hquiet _ _ _).settleLink
  | transmissionBegin rxd h hdue =>
    have hbusy : (s.hear rxd).linkIdle = false := by
      refine Classical.byContradiction fun hidle => ?_
      rw [Bool.not_eq_false] at hidle
      exact Bool.false_ne_true ((State.sendDue_of_linkIdle hidle).symm.trans hdue)
    rw [← State.settleLink_busy hbusy]
    exact LinkBase.settleLink (hs.base.of_heard h rxd rfl rfl rfl rfl rfl)
  | transmissionEnd what => exact (hs.base.endSending what).settleLink
  | pendingInForce => rwa [hs.settlePending_eq]
  | _ => exact hs.congr rfl rfl rfl rfl

end

end Sys2Proof.Machine

namespace Sys2Proof.Proofs
open Sys2Proof.Machine

/-- Settles O60: a take, an event or a cycle keeps the ranges and slots, and those that could leave the link unsettled
end by settling it. -/
theorem linkLawKept : Obligations.LinkLawKept := by
  intro s t hs h
  obtain ⟨-, rfl⟩ | ⟨i, rest, s₀, -, rfl, ⟨code, c, a, -, -, hexecutes, rfl⟩ | hoccurs⟩ := step_cases h
  · exact hs.refCycle
  · exact (hs.base.congr (t := { s with pending := rest }) rfl rfl rfl).finish hexecutes
  · exact hoccurs.keeps_linkLaw (hs.congr rfl rfl rfl rfl)

end Sys2Proof.Proofs
end

section
/-!
PROOFS. The laws of the due list and the park lists (R9, R25, R27, R76) are kept by every step: said with some entries
left out, they hold within a change of state too.
-/
namespace Sys2Proof.Machine

/-! ### Dues, keys and parked entries -/

/-- The due of an ARMED state. -/
def EntryState.due : EntryState → Option Word
  | .armed due => some due
  | _ => none

theorem State.dueOf_eq (s : State) (e : EntryId) : s.dueOf e = (s.entry e).bind fun a => a.state.due := by
  unfold State.dueOf
  cases s.entry e with
  | none => rfl
  | some a =>
    obtain ⟨owner, state⟩ := a
    cases state <;> rfl

theorem State.dueOf_eq_some (s : State) (e : EntryId) (due : Word) :
    s.dueOf e = some due ↔ ∃ a, s.entry e = some a ∧ a.state = .armed due := by
  rw [State.dueOf_eq, Option.bind_eq_some_iff]
  refine exists_congr fun a => and_congr_right fun _ => ?_
  cases a.state <;> simp [EntryState.due]

theorem State.dueOf_of_armed {s : State} {e : EntryId} {a : Entry} {due : Word} (he : s.entry e = some a)
    (ha : a.state = .armed due) : s.dueOf e = some due := (s.dueOf_eq_some e due).2 ⟨a, he, ha⟩

theorem State.dueOf_of_not_armed {s : State} {e : EntryId} {a : Entry} (he : s.entry e = some a)
    (ha : ∀ due, a.state ≠ .armed due) : s.dueOf e = none := by
  refine Classical.byContradiction fun h => ?_
  obtain ⟨due, hdue⟩ := Option.ne_none_iff_exists'.1 h
  obtain ⟨b, hb, hstate⟩ := (s.dueOf_eq_some e due).1 hdue
  rw [he] at hb
  cases hb
  exact ha due hstate

theorem State.dueOf_of_free {s : State} {e : EntryId} (he : s.entry e = none) : s.dueOf e = none := by
  simp [State.dueOf, he]

theorem State.keyOf_of_due {s : State} {e : EntryId} {due : Word} (h : s.dueOf e = some due) :
    s.keyOf e = difference due s.time.count := by simp [State.keyOf, h]

theorem State.keyOf_congr {s t : State} {e : EntryId} (hdue : t.dueOf e = s.dueOf e)
    (hcount : t.time.count = s.time.count) : t.keyOf e = s.keyOf e := by
  simp [State.keyOf, hdue, hcount]

theorem State.dueOf_congr {s t : State} {e : EntryId} (h : t.entry e = s.entry e) : t.dueOf e = s.dueOf e := by
  simp [State.dueOf, h]

/-- The entry is PARKED with the trigger. -/
def State.ParkedOn (s : State) (k : Fin 8) (e : EntryId) : Prop :=
  ∃ a, s.entry e = some a ∧ a.state = .parked ∧ a.trigger = some k

theorem State.parkedOn_congr {s t : State} {e : EntryId} (h : t.entry e = s.entry e) (k : Fin 8) :
    t.ParkedOn k e ↔ s.ParkedOn k e := by rw [State.ParkedOn, State.ParkedOn, h]

/-! ### The laws with entries left out -/

/-- The list laws of every entry but those left out, which stand in no list. -/
structure ListsBut (out : EntryId → Prop) (s : State) : Prop where
  dueOnce : s.dueList.Nodup
  dueArmed : ∀ e, e ∈ s.dueList ↔ (s.dueOf e).isSome = true ∧ ¬ out e
  parkOnce : ∀ k, (s.triggers.get k).park.Nodup
  parked : ∀ k e, e ∈ (s.triggers.get k).park ↔ s.ParkedOn k e ∧ ¬ out e
  order : DueOrder s
  prompt : PromptLaw s

/-- The list laws together. -/
def ListLaws (s : State) : Prop := ListsBut (fun _ => False) s

theorem listLaws_iff (s : State) : ListLaws s ↔ ListLaw s ∧ DueOrder s ∧ PromptLaw s := by
  constructor
  · intro h
    exact ⟨⟨h.dueOnce, by simpa using h.dueArmed, h.parkOnce, by simpa [State.ParkedOn] using h.parked⟩, h.order, h.prompt⟩
  · rintro ⟨h, horder, hprompt⟩
    exact ⟨h.dueOnce, by simpa using h.dueArmed, h.parkOnce, by simpa [State.ParkedOn] using h.parked, horder, hprompt⟩

section
variable {i : Instr} {p : Port} {s t : State} {out : EntryId → Prop}

/-- Entries taken out of their lists, the others keeping their dues, parks and places. -/
theorem ListsBut.filter (h : ListLaws s) (keep : EntryId → Bool) (hdue : ∀ e, keep e = true → t.dueOf e = s.dueOf e)
    (hparked : ∀ k e, keep e = true → (t.ParkedOn k e ↔ s.ParkedOn k e)) (hcount : t.time.count = s.time.count)
    (hlist : t.dueList = s.dueList.filter keep)
    (hpark : ∀ k, (t.triggers.get k).park = (s.triggers.get k).park.filter keep) (hpast : t.armedPast = s.armedPast) :
    ListsBut (fun e => keep e = false) t := by
  have hkey : ∀ e ∈ t.dueList, e ∈ s.dueList ∧ t.keyOf e = s.keyOf e := by
    intro e he
    rw [hlist, List.mem_filter] at he
    exact ⟨he.1, State.keyOf_congr (hdue e he.2) hcount⟩
  refine ⟨?_, fun e => ?_, fun k => ?_, fun k e => ?_, ?_, fun e he => ?_, fun e he => ?_⟩
  · rw [hlist]
    exact h.dueOnce.filter _
  · rw [hlist, List.mem_filter, h.dueArmed]
    cases hk : keep e with
    | false => simp
    | true => simp [hdue e hk]
  · rw [hpark]
    exact (h.parkOnce k).filter _
  · rw [hpark, List.mem_filter, h.parked]
    cases hk : keep e with
    | false => simp
    | true => simp [hparked k e hk]
  · have hsorted : t.dueList.Pairwise fun x y => s.keyOf x ≤ s.keyOf y := by
      rw [hlist]
      exact h.order.filter _
    refine hsorted.imp_of_mem fun hx hy hle => ?_
    rwa [(hkey _ hx).2, (hkey _ hy).2]
  · obtain ⟨hmem, hk⟩ := hkey e he
    rw [State.waited_congr hk (by rw [hpast])]
    exact h.prompt.prompt e hmem
  · obtain ⟨hmem, hk⟩ := hkey e he
    rw [hk, hpast]
    exact h.prompt.recorded e hmem

/-- What is left out may be forgotten when it is neither ARMED nor PARKED. -/
theorem ListsBut.complete (h : ListsBut out s) (hdue : ∀ e, out e → s.dueOf e = none)
    (hparked : ∀ k e, out e → ¬ s.ParkedOn k e) : ListLaws s := by
  refine ⟨h.dueOnce, fun e => ?_, h.parkOnce, fun k e => ?_, h.order, h.prompt⟩
  · rw [h.dueArmed]
    refine ⟨fun ⟨hsome, _⟩ => ⟨hsome, id⟩, fun ⟨hsome, _⟩ => ⟨hsome, fun ho => ?_⟩⟩
    rw [hdue e ho] at hsome
    cases hsome
  · rw [h.parked]
    exact ⟨fun ⟨hk, _⟩ => ⟨hk, id⟩, fun ⟨hk, _⟩ => ⟨hk, fun ho => hparked k e ho hk⟩⟩

/-- A change that leaves every due, every PARKED entry, the time count and the lists. -/
theorem ListLaws.congr (h : ListLaws s) (hdue : ∀ e, t.dueOf e = s.dueOf e)
    (hparked : ∀ k e, t.ParkedOn k e ↔ s.ParkedOn k e) (hcount : t.time.count = s.time.count)
    (hlist : t.dueList = s.dueList) (hpark : ∀ k, (t.triggers.get k).park = (s.triggers.get k).park)
    (hpast : t.armedPast = s.armedPast) : ListLaws t :=
  (ListsBut.filter h (fun _ => true) (fun e _ => hdue e) (fun k e _ => hparked k e) hcount
    (hlist.trans (List.filter_eq_self.2 fun _ _ => rfl).symm)
    (fun k => (hpark k).trans (List.filter_eq_self.2 fun _ _ => rfl).symm) hpast).complete (fun _ ho => (by cases ho)) fun _ _ ho => (by cases ho)

theorem ListLaws.of_entries (h : ListLaws s) (he : t.entries = s.entries) (hcount : t.time.count = s.time.count)
    (hlist : t.dueList = s.dueList) (hpark : ∀ k, (t.triggers.get k).park = (s.triggers.get k).park)
    (hpast : t.armedPast = s.armedPast) : ListLaws t := by
  have hentry : ∀ e, t.entry e = s.entry e := fun e => by rw [State.entry, he, State.entry]
  exact h.congr (fun e => State.dueOf_congr (hentry e)) (fun k e => State.parkedOn_congr (hentry e) k) hcount hlist hpark
    hpast

/-- A table with no entry allocated and every list empty. -/
theorem ListLaws.of_free (h : ∀ e, t.entry e = none) (hlist : t.dueList = [])
    (hpark : ∀ k, (t.triggers.get k).park = []) : ListLaws t where
  dueOnce := by simp [hlist]
  dueArmed e := by simp [hlist, State.dueOf_of_free (h e)]
  parkOnce k := by simp [hpark]
  parked k e := by simp [hpark, State.ParkedOn, h]
  order := by simp [DueOrder, hlist]
  prompt := ⟨by simp [hlist], by simp [hlist]⟩

/-- A record written in place of one in the same state, with the same trigger or none that counts. -/
theorem ListLaws.setEntry {e : EntryId} {a b : Entry} (h : ListLaws s) (he : s.entry e = some a)
    (hstate : b.state = a.state) (htrigger : a.state = .idle ∨ b.trigger = a.trigger) :
    ListLaws (s.setEntry e (some b)) := by
  refine h.congr (fun x => ?_) (fun k x => ?_) rfl rfl (fun _ => rfl) rfl
  · by_cases hx : x = e
    · subst hx
      simp [State.dueOf_eq, he, hstate]
    · exact State.dueOf_congr (by simp [hx])
  · by_cases hx : x = e
    · subst hx
      obtain hidle | htrigger := htrigger
      · simp [State.ParkedOn, he, hstate, hidle]
      · simp [State.ParkedOn, he, hstate, htrigger]
    · exact State.parkedOn_congr (by simp [hx]) k

/-! ### A change of state -/

theorem State.dueOf_place_ne (s : State) {e x : EntryId} (hx : x ≠ e) (a : Entry) : (s.place e a).dueOf x = s.dueOf x :=
  State.dueOf_congr (by rw [State.place_entry, if_neg hx])

theorem State.parkedOn_place_ne (s : State) {e x : EntryId} (hx : x ≠ e) (a : Entry) (k : Fin 8) :
    (s.place e a).ParkedOn k x ↔ s.ParkedOn k x :=
  State.parkedOn_congr (by rw [State.place_entry, if_neg hx]) k

theorem State.place_time (s : State) (e : EntryId) (a : Entry) : (s.place e a).time = s.time := by
  rw [State.place_frame]

/-- The due list after an entry of no list is put in its place. -/
theorem State.place_dueList (s : State) (e : EntryId) (a : Entry) :
    (s.place e a).dueList =
      match a.state with
      | .armed due => insertBy s.keyOf (difference due s.time.count) e s.dueList
      | _ => s.dueList := by
  unfold State.place
  cases hstate : a.state with
  | parked => cases a.trigger <;> rfl
  | _ => rfl

/-- The park lists after an entry of no list is put in its place. -/
theorem State.place_park (s : State) (e : EntryId) (a : Entry) (k : Fin 8) :
    ((s.place e a).triggers.get k) =
      { s.triggers.get k with
        park := (s.triggers.get k).park ++ if a.state = .parked ∧ a.trigger = some k then [e] else [] } := by
  unfold State.place
  cases hstate : a.state with
  | parked =>
    cases htrigger : a.trigger with
    | none => simp
    | some k' =>
      dsimp only
      rw [State.appendPark_triggers]
      simp [eq_comm]
  | _ => simp

/-- Put at its key into a sorted list, an entry leaves it sorted (R26). -/
theorem pairwise_insertBy {key : EntryId → Int} {e : EntryId} {l : List EntryId}
    (h : l.Pairwise fun x y => key x ≤ key y) : (insertBy key (key e) e l).Pairwise fun x y => key x ≤ key y := by
  obtain ⟨before, after, hsplit, hl, hbefore, hafter⟩ := insertBy_split key (key e) e l
  rw [← hl, List.pairwise_append] at h
  obtain ⟨hb, ha, hcross⟩ := h
  have hafter : ∀ x ∈ after, key e ≤ key x := by
    cases after with
    | nil => simp
    | cons y after =>
      have hy : key e < key y := hafter y (by simp)
      intro x hx
      obtain rfl | hx := List.mem_cons.1 hx
      · exact Int.le_of_lt hy
      · exact Int.le_trans (Int.le_of_lt hy) (List.rel_of_pairwise_cons ha hx)
  rw [hsplit, List.pairwise_append, List.pairwise_cons]
  refine ⟨hb, ⟨hafter, ha⟩, fun x hx y hy => ?_⟩
  obtain rfl | hy := List.mem_cons.1 hy
  · exact hbefore x hx
  · exact hcross x hx y hy

theorem insertBy_congr {key key' : EntryId → Int} {l : List EntryId} (h : ∀ x ∈ l, key' x = key x) (n : Int)
    (e : EntryId) : insertBy key' n e l = insertBy key n e l := by
  induction l with
  | nil => rfl
  | cons x l ih =>
    rw [insertBy, insertBy, h x (by simp), ih fun y hy => h y (by simp [hy])]

/-- What joins the due list has waited for no tick (R27). -/
theorem State.waited_of_joined {e : EntryId} {due : Word} (hdue : s.dueOf e = some due)
    (hpast : s.armedPast.get e = ticksPast due s.time.count) :
    s.waited e = 0 ∧ (s.armedPast.get e : Int) ≤ max 0 (-(s.keyOf e)) := by
  rw [State.waited, hpast, State.keyOf_of_due hdue, ticksPast]
  omega

/-- The entry left out is put into the list of its new state (R9, R26, R77). -/
theorem ListsBut.place {e : EntryId} (h : ListsBut (· = e) s) (a : Entry) : ListLaws (s.place e a) := by
  have hself : (s.place e a).entry e = some a := by rw [State.place_entry, if_pos rfl]
  have hnotin : e ∉ s.dueList := fun he => ((h.dueArmed e).1 he).2 rfl
  have hne : ∀ x ∈ s.dueList, x ≠ e := fun x hx hxe => hnotin (hxe ▸ hx)
  have hkey : ∀ x, x ≠ e → (s.place e a).keyOf x = s.keyOf x := fun x hx =>
    State.keyOf_congr (s.dueOf_place_ne hx a) (by rw [State.place_time])
  have hpast : ∀ x, x ≠ e → (s.place e a).armedPast.get x = s.armedPast.get x := by
    intro x hx
    rw [State.place_armedPast]
    split
    · exact get_set_ne _ _ _ _ hx
    · rfl
  have hmem : ∀ x, x ∈ (s.place e a).dueList ↔ (x = e ∧ ∃ due, a.state = .armed due) ∨ x ∈ s.dueList := by
    intro x
    rw [State.place_dueList]
    cases a.state with
    | armed due => simp [mem_insertBy]
    | _ => simp
  have hjoined : ∀ due, a.state = .armed due →
      (s.place e a).waited e = 0 ∧ ((s.place e a).armedPast.get e : Int) ≤ max 0 (-((s.place e a).keyOf e)) := by
    intro due ha
    refine State.waited_of_joined (State.dueOf_of_armed hself ha) ?_
    rw [State.place_armedPast, ha, State.place_time]
    exact get_set_self _ _ _
  refine ⟨?_, fun x => ?_, fun k => ?_, fun k x => ?_, ?_, fun x hx => ?_, fun x hx => ?_⟩
  · rw [State.place_dueList]
    cases a.state with
    | armed due =>
      obtain ⟨before, after, hsplit, hl, -, -⟩ := insertBy_split s.keyOf (difference due s.time.count) e s.dueList
      have honce := h.dueOnce
      rw [← hl] at honce hnotin
      simp only [hsplit]
      exact List.perm_middle.nodup_iff.2 (List.nodup_cons.2 ⟨hnotin, honce⟩)
    | _ => exact h.dueOnce
  · rw [hmem, h.dueArmed]
    by_cases hx : x = e
    · subst hx
      have hdue : (∃ due, a.state = .armed due) ↔ ((s.place x a).dueOf x).isSome = true := by
        rw [Option.isSome_iff_exists]
        exact exists_congr fun due => by simp [State.dueOf_eq_some, hself]
      simp [hdue]
    · simp [hx, s.dueOf_place_ne hx]
  · rw [State.place_park]
    split
    · refine List.nodup_append.2 ⟨h.parkOnce k, by simp, fun x hx y hy => ?_⟩
      rw [List.mem_singleton.1 hy]
      exact ((h.parked k x).1 hx).2
    · simpa using h.parkOnce k
  · rw [State.place_park, List.mem_append, h.parked]
    by_cases hx : x = e
    · subst hx
      simp [State.ParkedOn, hself]
    · simp [hx, s.parkedOn_place_ne hx]
  · rw [DueOrder, State.place_dueList]
    have hsorted : s.dueList.Pairwise fun x y => (s.place e a).keyOf x ≤ (s.place e a).keyOf y :=
      h.order.imp_of_mem fun hx hy hle => by rwa [hkey _ (hne _ hx), hkey _ (hne _ hy)]
    cases ha : a.state with
    | armed due =>
      have hself : difference due s.time.count = (s.place e a).keyOf e := by
        rw [State.keyOf_of_due (State.dueOf_of_armed hself ha), State.place_time]
      dsimp only
      rw [hself, ← insertBy_congr fun x hx => hkey x (hne x hx)]
      exact pairwise_insertBy hsorted
    | _ => exact hsorted
  · obtain ⟨rfl, due, ha⟩ | hx := (hmem x).1 hx
    · rw [(hjoined due ha).1]
      decide
    · rw [State.waited_congr (hkey x (hne x hx)) (hpast x (hne x hx))]
      exact h.prompt.prompt x hx
  · obtain ⟨rfl, due, ha⟩ | hx := (hmem x).1 hx
    · exact (hjoined due ha).2
    · rw [hkey x (hne x hx), hpast x (hne x hx)]
      exact h.prompt.recorded x hx

theorem ListLaws.unlist (h : ListLaws s) (e : EntryId) : ListsBut (· = e) (s.unlist e) := by
  have hbut := ListsBut.filter (t := s.unlist e) h (fun x => x != e) (fun _ _ => rfl) (fun _ _ _ => Iff.rfl) rfl rfl
    (fun k => by rw [State.unlist_triggers]) rfl
  simpa using hbut

/-- A change of state moves the entry from the list it is in to the list of its new state (R9). -/
theorem ListLaws.move (h : ListLaws s) (e : EntryId) (a : Entry) : ListLaws (s.move e a) := (h.unlist e).place a

theorem ListLaws.moves (h : ListLaws s) (hm : Moves s t) : ListLaws t :=
  hm.keeps h fun _ e _ b _ _ hu => hu.move e b

/-! ### RETIRE, EVICT and LEAVE -/

theorem Entry.unchain_state (e : EntryId) (a : Entry) : (a.unchain e).state = a.state := by
  unfold Entry.unchain; split <;> rfl

theorem Entry.unchain_trigger (e : EntryId) (a : Entry) : (a.unchain e).trigger = a.trigger := by
  unfold Entry.unchain; split <;> rfl

theorem ListLaws.retire {e : EntryId} {a : Entry} (h : ListLaws s) : ListLaws (s.retireEntry e a) := by
  have hkept : ∀ x, x ≠ e → ((s.retireEntry e a).entry x).map (fun b => (b.state, b.trigger)) =
      (s.entry x).map fun b => (b.state, b.trigger) := by
    intro x hx
    rw [State.entry_retireEntry, if_neg hx, Option.map_map]
    refine congrArg (Option.map · (s.entry x)) (funext fun b => ?_)
    simp only [Function.comp_apply]
    split
    · rw [Entry.unchain_state, Entry.unchain_trigger]
    · rfl
  have hfree : (s.retireEntry e a).entry e = none := by rw [State.entry_retireEntry, if_pos rfl]
  have hbut : ListsBut (fun x => (x != e) = false) (s.retireEntry e a) := by
    refine ListsBut.filter h (fun x => x != e) (fun x hx => ?_) (fun k x hx => ?_) rfl rfl (fun k => ?_) rfl
    · have hx := hkept x (by simpa using hx)
      rw [State.dueOf_eq, State.dueOf_eq]
      revert hx
      generalize (s.retireEntry e a).entry x = r
      generalize s.entry x = r'
      cases r <;> cases r' <;> simp +contextual
    · have hx := hkept x (by simpa using hx)
      unfold State.ParkedOn
      revert hx
      generalize (s.retireEntry e a).entry x = r
      generalize s.entry x = r'
      cases r <;> cases r' <;> simp +contextual
    · exact congrArg Trigger.park (s.unlist_triggers e k)
  refine hbut.complete (fun x hx => ?_) fun k x hx => ?_
  · rw [show x = e by simpa using hx]
    exact State.dueOf_of_free hfree
  · rw [show x = e by simpa using hx]
    simp [State.ParkedOn, hfree]

theorem State.releaseClaims_park (s : State) (l : BitVec 16) (k : BitVec 8) (j : Fin 8) :
    ((s.releaseClaims l k).triggers.get j).park = (s.triggers.get j).park := by
  have h : (s.releaseClaims l k).triggers.get j = if k.getLsbD j.val then
      { Trigger.initial (s.triggers.get j).level (s.triggers.get j).sample with park := (s.triggers.get j).park }
      else s.triggers.get j := get_ofFn _ _
  rw [h]
  split <;> rfl

theorem ListLaws.releaseClaims (h : ListLaws s) (l : BitVec 16) (k : BitVec 8) : ListLaws (s.releaseClaims l k) :=
  h.of_entries (s.releaseClaims_entries l k) rfl rfl (s.releaseClaims_park l k) rfl

theorem ListLaws.clearLink (h : ListLaws s) : ListLaws s.clearLink := by
  have hbut : ListsBut (fun e => (!ownedBy .link (s.entry e)) = false) s.retireLink := by
    refine ListsBut.filter h (fun e => !ownedBy .link (s.entry e)) (fun e he => ?_) (fun k e he => ?_) rfl rfl
      (fun k => congrArg Trigger.park (get_map _ _ _)) rfl
    · exact State.dueOf_congr (by rw [State.entry_retireLink, if_neg (by simpa using he)])
    · exact State.parkedOn_congr (by rw [State.entry_retireLink, if_neg (by simpa using he)]) k
  have hfree : ∀ e, (!ownedBy .link (s.entry e)) = false → s.retireLink.entry e = none := fun e he => by
    rw [State.entry_retireLink, if_pos (by simpa using he)]
  have hretired : ListLaws s.retireLink :=
    hbut.complete (fun e he => State.dueOf_of_free (hfree e he)) fun k e he => by simp [State.ParkedOn, hfree e he]
  exact (hretired.releaseClaims (s.retireLink.lines.lineMask .link) (s.retireLink.lines.triggerMask .link)).of_entries
    rfl rfl rfl (fun _ => rfl) rfl

/-! ### The time count -/

/-- SET_TIME moves every due with the time count, so that every difference is kept (R119). -/
theorem State.dueOf_setTime (s : State) (w : Word) (e : EntryId) :
    (s.setTime w).dueOf e = (s.dueOf e).map fun due => due + (w - s.time.count) := by
  have he : (s.setTime w).entry e = (s.entry e).map fun a => a.shift (w - s.time.count) := get_map _ _ _
  unfold State.dueOf
  rw [he]
  cases s.entry e with
  | none => rfl
  | some a =>
    obtain ⟨owner, state⟩ := a
    cases state <;> rfl

theorem State.keyOf_setTime (s : State) (w : Word) (e : EntryId) : (s.setTime w).keyOf e = s.keyOf e := by
  unfold State.keyOf
  rw [State.dueOf_setTime]
  cases s.dueOf e with
  | none => rfl
  | some due =>
    have hshift : due + (w - s.time.count) - w = due - s.time.count := by bv_omega
    exact congrArg BitVec.toInt hshift

theorem State.parkedOn_setTime (s : State) (w : Word) (k : Fin 8) (e : EntryId) :
    (s.setTime w).ParkedOn k e ↔ s.ParkedOn k e := by
  have he : (s.setTime w).entry e = (s.entry e).map fun a => a.shift (w - s.time.count) := get_map _ _ _
  unfold State.ParkedOn
  rw [he]
  cases s.entry e with
  | none => rfl
  | some a =>
    obtain ⟨owner, state⟩ := a
    cases state <;> simp [Entry.shift]

theorem ListLaws.setTime (h : ListLaws s) (w : Word) : ListLaws (s.setTime w) := by
  refine ⟨h.dueOnce, fun e => ?_, fun k => ?_, fun k e => ?_, ?_, fun e he => ?_, fun e he => ?_⟩
  · rw [State.dueOf_setTime, Option.isSome_map]
    exact h.dueArmed e
  · simpa [State.setTime] using h.parkOnce k
  · rw [State.parkedOn_setTime]
    simpa [State.setTime] using h.parked k e
  · exact h.order.imp fun hle => by rwa [State.keyOf_setTime, State.keyOf_setTime]
  · rw [State.waited_congr (s.keyOf_setTime w e) rfl]
    exact h.prompt.prompt e he
  · rw [State.keyOf_setTime]
    exact h.prompt.recorded e he

theorem difference_succ {due now : Word} (h : difference due now ≠ Config.mostPast) :
    difference due (now + 1) = difference due now - 1 := by
  have hsub : due - (now + 1) = (due - now) - 1 := by bv_omega
  rw [difference, hsub, BitVec.toInt_sub]
  have hone : BitVec.toInt (1 : Word) = 1 := rfl
  have hlow := BitVec.le_toInt (due - now)
  have hhigh := BitVec.toInt_lt (x := due - now)
  rw [hone, Int.bmod_eq_of_le]
  · rfl
  all_goals
    simp only [difference, Config.mostPast] at h
    omega

/-- A tick before which nothing must fire takes every difference one down, and lengthens every wait to less than 2^16
(R27). -/
theorem ListLaws.ticked (h : ListLaws s) (hfires : s.firesFirst = false) : ListLaws { s with time := s.time.ticked } := by
  have hwaits : ∀ e ∈ s.dueList, s.waited e < 65535 ∧ s.keyOf e ≠ Config.mostPast := by
    intro e he
    have hnot := fun hmust => Bool.eq_false_iff.1 hfires (s.firesFirst_iff.2 ⟨e, he, hmust⟩)
    simpa [not_or] using hnot
  have hkey : ∀ e ∈ s.dueList, State.keyOf { s with time := s.time.ticked } e = s.keyOf e - 1 := by
    intro e he
    obtain ⟨due, hdue⟩ := Option.isSome_iff_exists.1 ((h.dueArmed e).1 he).1
    have hdue' : State.dueOf { s with time := s.time.ticked } e = some due := hdue
    have hmost := (hwaits e he).2
    rw [State.keyOf_of_due hdue] at hmost
    rw [State.keyOf_of_due hdue', State.keyOf_of_due hdue]
    exact difference_succ hmost
  refine ⟨h.dueOnce, h.dueArmed, h.parkOnce, h.parked, ?_, fun e he => ?_, fun e he => ?_⟩
  · refine h.order.imp_of_mem fun hx hy hle => ?_
    rw [hkey _ hx, hkey _ hy]
    omega
  · have hwait := (hwaits e he).1
    simp only [State.waited, Config.promptTicks] at hwait ⊢
    rw [hkey e he]
    omega
  · have hrecorded := h.prompt.recorded e he
    rw [hkey e he]
    show (s.armedPast.get e : Int) ≤ _
    omega

theorem ListLaws.cycles (h : ListLaws s) (n : Nat) : ListLaws (s.cycles n) := by
  obtain hs | ⟨-, hs⟩ | ⟨hfires, hs⟩ := s.cycles_outcome n <;> rw [hs]
  · exact h
  · exact h.of_entries rfl rfl rfl (fun _ => rfl) rfl
  · exact h.ticked hfires

/-! ### Every step -/

theorem ListLaws.setTrigger {k : Fin 8} {r : Trigger} (h : ListLaws s) (hpark : r.park = (s.triggers.get k).park) :
    ListLaws (s.setTrigger k r) := by
  refine h.of_entries rfl rfl rfl (fun j => ?_) rfl
  rw [State.setTrigger_triggers, get_set]
  split
  · next hj => rw [hpark, Fin.ext hj]
  · rfl

theorem TimeBase.prescale_count (b : TimeBase) (k : BitVec 4) : (b.prescale k).count = b.count := by
  unfold TimeBase.prescale; split <;> rfl

theorem State.park_resetBlocks (s : State) (cause : ResetCause) (link : LinkPort) (k : Fin 8) :
    ((s.resetBlocks cause link).triggers.get k).park = [] :=
  congrArg Trigger.park (get_map _ _ _)

theorem Effect.keeps_listLaws (h : Effect i p s t) (hs : ListLaws s) : ListLaws t := by
  cases h with
  | reset c sdi => exact .of_free (s.entry_commandReset sdi) rfl (s.park_resetBlocks .command s.link)
  | alloc e hfree =>
    refine hs.congr (fun x => ?_) (fun k x => ?_) rfl rfl (fun _ => rfl) rfl
    · by_cases hx : x = e
      · simp [State.dueOf, hx, hfree, Entry.initial]
      · exact State.dueOf_congr (by simp [hx])
    · by_cases hx : x = e
      · simp [State.ParkedOn, hx, hfree, Entry.initial]
      · exact State.parkedOn_congr (by simp [hx]) k
  | retire e a => exact hs.retire
  | config e a f he ho hrepark hchain hidle => exact hs.setEntry he rfl (.inl hidle)
  | stage e a w he => exact hs.setEntry he rfl (.inr rfl)
  | move e a b => exact hs.move e b
  | give e a he =>
    exact (hs.setEntry (b := { a with owner := p.other }) he rfl (.inr rfl)).of_entries rfl rfl rfl (fun _ => rfl) rfl
  | evict => exact hs.clearLink.of_entries rfl rfl rfl (fun _ => rfl) rfl
  | leave => exact hs.clearLink
  | release l k => exact hs.releaseClaims l k
  | triggerConfig k | readTrigger k => exact hs.setTrigger rfl
  | setTime c w => exact hs.setTime w
  | prescale k => exact hs.of_entries rfl (TimeBase.prescale_count _ _) rfl (fun _ => rfl) rfl
  | _ => exact hs.of_entries rfl rfl rfl (fun _ => rfl) rfl

theorem ListLaws.fireEntry {e : EntryId} {a : Entry} (h : ListLaws s) (he : s.entry e = some a) (due : Word) :
    ListLaws (s.fireEntry e a due) := by
  obtain ⟨u, hmoves, hu⟩ := State.fireEntry_moves he due
  have hdelivered : ListLaws { s with lines := (s.lines.deliver a.action).2 } :=
    h.of_entries rfl rfl rfl (fun _ => rfl) rfl
  have hu' : ListLaws u := hdelivered.moves hmoves
  obtain hu | ⟨flags, hu⟩ := hu
  · rwa [hu]
  · rw [hu]
    exact hu'.of_entries rfl rfl rfl (fun _ => rfl) rfl

theorem ListLaws.settleLink (h : ListLaws s) : ListLaws s.settleLink :=
  h.of_entries s.settleLink_entries (by rw [State.settleLink_time]) s.settleLink_dueList
    (fun _ => by rw [State.settleLink_triggers]) s.settleLink_armedPast

theorem Occurs.keeps_listLaws (h : Occurs i s t) (hs : ListLaws s) : ListLaws t := by
  cases h with
  | fire e a due h => exact (hs.fireEntry h.record due).settleLink
  | tick n => exact hs.cycles n
  | triggerSample k => exact hs.setTrigger rfl
  | edge k =>
    obtain ⟨r, hpark, hmoves⟩ := s.takeEdge_moves k
    exact (hs.setTrigger hpark).moves hmoves
  | lockLost => exact hs.of_entries rfl s.time.lose_count rfl (fun _ => rfl) rfl
  | powerOn | nresetAssert => exact .of_free (s.entry_resetBlocks .pin s.link) rfl (s.park_resetBlocks .pin s.link)
  | firstLevels level sample => exact hs.of_entries rfl rfl rfl (fun k => by rw [get_ofFn]) rfl
  | falseStart | gap | transmissionEnd =>
    refine ListLaws.settleLink ?_
    exact hs.of_entries rfl rfl rfl (fun _ => rfl) rfl
  | character rxd data mark stop =>
    refine ListLaws.settleLink ?_
    rw [State.examine_frame]
    exact hs.of_entries rfl rfl rfl (fun _ => rfl) rfl
  | transmissionBegin rxd =>
    rw [State.beginSending_frame]
    exact hs.of_entries rfl rfl rfl (fun _ => rfl) rfl
  | pendingInForce =>
    rw [State.settlePending_frame]
    exact hs.of_entries rfl rfl rfl (fun _ => rfl) rfl
  | _ => exact hs.of_entries rfl rfl rfl (fun _ => rfl) rfl

theorem ListLaws.refCycle (h : ListLaws s) : ListLaws s.refCycle := by
  unfold State.refCycle
  split
  · refine ListLaws.settleLink (State.cycleByCycle_keeps (p := ListLaws) (fun _ hu => hu.cycles 1) _ _ ?_)
    rw [State.lineCycle_frame]
    exact h.of_entries rfl rfl rfl (fun k => by simp only [State.restInputs, get_map]) rfl
  · exact h

theorem listLaws_kept : Kept ListLaws where
  pending _ _ h := h.of_entries rfl rfl rfl (fun _ => rfl) rfl
  emptySlot _ _ h := h.of_entries rfl rfl rfl (fun _ => rfl) rfl
  reply s src r h := by cases src <;> exact h.of_entries rfl rfl rfl (fun _ => rfl) rfl
  settleLink _ h := h.settleLink
  effect _ _ _ _ heffect h := heffect.keeps_listLaws h
  event _ _ _ hoccurs h := hoccurs.keeps_listLaws h
  refCycle _ h := h.refCycle

end

end Sys2Proof.Machine

namespace Sys2Proof.Proofs
open Sys2Proof.Machine

/-- Settles O56: a change of state takes an entry from its list to the next, and a tick waits for what must fire. -/
theorem listLawsKept : Obligations.ListLawsKept := by
  intro s t hlists horder hprompt h
  exact (listLaws_iff t).1 (listLaws_kept.step ((listLaws_iff s).2 ⟨hlists, horder, hprompt⟩) h)

end Sys2Proof.Proofs
end

section
/-!
PROOFS. The take of a command (R125 to R131): when a command is the controller's next, what its answer leaves, where the
response goes and what settling the link does, and the checks on the entry that a command names.
-/
namespace Sys2Proof.Machine

/-! ### Arbitration (R127) -/

/-- A port is served while the part runs, when its slot is filled and the other's is empty or was served last. -/
theorem State.served_iff (s : State) (p : Port) :
    s.served = some p ↔ s.phase = .running ∧ (s.ctl.commands.get p).isSome = true ∧
      (s.ctl.commands.get p.other = none ∨ s.ctl.lastServed = p.other) := by
  unfold State.served
  by_cases hr : s.phase = .running
  · rw [if_pos (s.running_iff.2 hr)]
    cases p <;> cases hspi : s.ctl.commands.spi <;> cases hlink : s.ctl.commands.link <;>
      simp [PerPort.get, Port.other, hspi, hlink, hr]
    all_goals cases s.ctl.lastServed <;> simp
  · rw [if_neg fun h => hr (s.running_iff.1 h)]
    simp [hr]

theorem State.takes_iff (s : State) (code : Byte) (c : Cmd) :
    s.takes code c = true ↔ s.phase = .running ∧ s.ctl.commands.get c.src.port = some (cmdFrame code c) ∧
      (s.ctl.commands.get c.src.port.other = none ∨ s.ctl.lastServed = c.src.port.other) := by
  rw [State.takes, Bool.and_eq_true, beq_iff_eq, beq_iff_eq, s.served_iff]
  constructor
  · rintro ⟨⟨hrunning, -, hnext⟩, hslot⟩
    exact ⟨hrunning, hslot, hnext⟩
  · rintro ⟨hrunning, hslot, hnext⟩
    exact ⟨⟨hrunning, by rw [hslot]; rfl, hnext⟩, hslot⟩

section
variable {i : Instr} {code : Byte} {c : Cmd} {s t : State} {p : Port}

theorem exec_eq_of_not_takes (h : commandOf i = some (code, c)) (ht : ¬ s.takes code c = true) :
    exec i s = .next s := exec_not_taken h (Bool.eq_false_iff.2 ht)

/-! ### What an answer leaves -/

/-- RESET_PART alone writes which port was served last. -/
theorem Effect.keeps_lastServed {c' : Cmd} (h : Effect i p s t) (hi : commandOf i = some (code, c'))
    (hcode : code ≠ 0x04) : t.ctl.lastServed = s.ctl.lastServed := by
  cases h with
  | reset c sdi h =>
    subst h
    cases hi
    exact absurd rfl hcode
  | move e a b => rw [State.move_frame]
  | _ => rfl

/-! ### Settling the link -/

theorem LinkPort.lineFree_iff (k : LinkPort) :
    k.lineFree = true ↔ k.receiver = .hunting ∧ k.insideChar = false ∧ k.transmitter = .quiet := by
  simp [LinkPort.lineFree, and_assoc]

theorem State.linkIdle_iff (s : State) :
    s.linkIdle = true ↔ (s.link.receiver = .hunting ∧ s.link.insideChar = false ∧ s.link.transmitter = .quiet) ∧
      s.ctl.responses.link = none ∧ s.ctl.commands.link = none ∧ s.notices.marker = false := by
  simp [State.linkIdle, LinkPort.lineFree_iff, and_assoc]

theorem LinkPort.lineReady_iff (k : LinkPort) :
    k.lineReady = true ↔ (k.receiver = .hunting ∧ k.insideChar = false ∧ k.transmitter = .quiet) ∧
      k.settings.q.toNat ≤ k.idleCount := by
  simp [LinkPort.lineReady, LinkPort.lineFree_iff]

theorem State.sendDue_iff (s : State) :
    s.sendDue = true ↔ s.link.lineReady = true ∧ (s.ctl.responses.link ≠ none ∨ s.notices.marker = true) := by
  simp [State.sendDue, Option.isSome_iff_ne_none]

theorem State.beginSending_response {r : Response} (hready : s.link.lineReady = true)
    (hr : s.ctl.responses.link = some r) :
    s.beginSending = { s with link := s.link.send .response (responseBytes r) } := by
  simp [State.beginSending, hready, hr]

theorem State.beginSending_marker (hready : s.link.lineReady = true) (hr : s.ctl.responses.link = none)
    (hm : s.notices.marker = true) :
    s.beginSending = { s with link := s.link.send .marker [Config.markerChar]
                              notices := { s.notices with marker := false } } := by
  simp [State.beginSending, hready, hr, hm]

/-- What is due to be sent keeps the link from being idle. -/
theorem State.settleLink_due (h : s.sendDue = true) : s.settleLink = s.beginSending := by
  refine State.settleLink_busy (Bool.eq_false_iff.2 fun hidle => ?_)
  exact Bool.false_ne_true ((State.sendDue_of_linkIdle hidle).symm.trans h)

theorem State.settleLink_rest (hidle : ¬ s.linkIdle = true) (hdue : ¬ s.sendDue = true) : s.settleLink = s := by
  rw [State.settleLink_busy (Bool.eq_false_iff.2 hidle), State.beginSending_none (Bool.eq_false_iff.2 hdue)]

/-! ### The run of a command -/

/-- A command of a fitting length, from a port with permission, gets to its own checks and execution. -/
theorem exec_run_of {lengthOk : Nat → Bool} {permit : Permit} {run : Port → List Byte → State → Answer}
    (hexec : ∀ s, exec i s = .next (takeCommand code lengthOk permit run c s)) (ht : s.takes code c = true)
    (hl : lengthOk c.body.length = true) (hp : permit.admits c.src.port = true) :
    exec i s = .next ((run c.src.port c.body (during s c)).finish code c) := by
  rw [hexec, takeCommand_taken _ _ _ ht, checked_run _ _ hl hp]

theorem exec_run {n : Nat} {permit : Permit} {run : Port → List Byte → State → Answer}
    (hexec : ∀ s, exec i s = .next (takeCommand code (exactly n) permit run c s)) (ht : s.takes code c = true)
    (hl : c.body.length = n) (hp : permit.admits c.src.port = true) :
    exec i s = .next ((run c.src.port c.body (during s c)).finish code c) :=
  exec_run_of hexec ht (by simpa using hl) hp

/-- The checks of stages 5 and 6 on the entry that a command names (R131). -/
theorem exec_entryChecks {n : Nat} {e : EntryId} {permit : Permit} {run : Port → List Byte → State → Answer}
    (hexec : ∀ s, exec i s = .next (takeCommand code (exactly n) permit run c s)) (ht : s.takes code c = true)
    (hl : c.body.length = n) (hp : permit.admits c.src.port = true)
    (hrun : ∃ rest, run c.src.port c.body (during s c) = withOwned c.src.port e (during s c) rest) :
    (s.entry e = none → exec i s = refusedNext code c .noEntry s) ∧
      ∀ a, s.entry e = some a → a.owner ≠ c.src.port → exec i s = refusedNext code c .notOwner s := by
  obtain ⟨rest, hrun⟩ := hrun
  rw [exec_run hexec ht hl hp, hrun]
  refine ⟨fun he => ?_, fun a he ho => ?_⟩
  · rw [withOwned_none (s := during s c) rest he, refusedNext]
  · rw [withOwned_other (s := during s c) rest he ho, refusedNext]

end

end Sys2Proof.Machine

namespace Sys2Proof.Proofs
open Sys2Proof.Machine

/-- Settles O1: it is how a step is defined. -/
theorem stepRunsFront : Obligations.StepRunsFront := fun _ _ _ => rfl

/-- Settles O3: each condition is one of the three that a take needs. -/
theorem takeArbitration : Obligations.TakeArbitration := by
  intro i code c s hi
  simp only [State.takes_iff]
  refine ⟨fun hphase => ?_, fun hslot => ?_, fun hother hlast => ?_, fun hrunning hslot hnext => ⟨hrunning, hslot, hnext⟩⟩
  all_goals
    refine exec_eq_of_not_takes hi fun ht => ?_
    obtain ⟨hrunning, hslot', hnext⟩ := (s.takes_iff code c).1 ht
  · exact hphase hrunning
  · exact hslot hslot'
  · obtain hnone | hserved := hnext
    · simp [hnone] at hother
    · exact Port.other_ne c.src.port (hserved.symm.trans hlast)

/-- Settles O4: an answer is a refusal on the part with the slot emptied, or an effect, which fills no command slot. -/
theorem takeAnswers : Obligations.TakeAnswers := by
  intro i code c s hi ht
  obtain ⟨a, hexec, hexecutes⟩ := exec_taken hi ht
  refine ⟨a, hexec, ?_⟩
  have hempty : (during s c).ctl.commands.get c.src.port = none := by simp
  obtain ⟨r, -, rfl⟩ | ⟨hok, heffect⟩ := hexecutes
  · exact ⟨hempty, fun _ => rfl, fun _ => rfl⟩
  · exact ⟨heffect.emptied hempty, fun hcode => heffect.keeps_lastServed hi hcode, fun hr => absurd hok hr⟩

/-- Settles O5: placing writes one slot, and settling is the four cases of the link at the end of an event. -/
theorem responsePlaced : Obligations.ResponsePlaced := by
  refine ⟨fun code c a => ?_, fun s => ?_⟩
  · refine ⟨a.state.reply c.src (a.response code c), rfl, ?_⟩
    cases c.src with
    | spi => exact ⟨rfl, fun _ => ⟨rfl, rfl⟩, nofun, nofun⟩
    | link => exact ⟨rfl, nofun, fun _ => ⟨rfl, rfl⟩, nofun⟩
    | broadcast => exact ⟨rfl, nofun, nofun, fun _ => ⟨rfl, rfl⟩⟩
  · dsimp only
    rw [← State.linkIdle_iff, ← LinkPort.lineReady_iff, ← State.sendDue_iff]
    refine ⟨fun hidle => ?_, fun hready r hr => ?_, fun hready hr hm => ?_, State.settleLink_rest, s.sendDue_settleLink⟩
    · rw [State.settleLink_idle hidle]
      exact ⟨fun hnone => by simp [LinkPort.applyPending, hnone], fun w hw => by simp [LinkPort.applyPending, hw]⟩
    · rw [State.settleLink_due (s.sendDue_iff.2 ⟨hready, .inl (by simp [hr])⟩), State.beginSending_response hready hr]
      rfl
    · rw [State.settleLink_due (s.sendDue_iff.2 ⟨hready, .inr hm⟩), State.beginSending_marker hready hr hm]
      rfl

/-- Settles O7: each of these commands reads an entry number first, and checks the entry before anything else of it. -/
theorem entryChecks : Obligations.EntryChecks := by
  refine ⟨fun i code c s b rest hi hcode ht hbody hlength hnudge => ?_, fun c s b ht hbody => ?_⟩
  · have hone : c.body.length = 1 → readEntryBody c.body = some (entryOfByte b) := by
      rw [hbody]
      rintro hlength
      rw [List.length_eq_zero_iff.1 (Nat.succ.inj hlength)]
      rfl
    have hfive : c.body.length = 5 → ∃ w, rest = bytes32 w ∧ readEntryWordBody c.body = some (entryOfByte b, w) := by
      rw [hbody]
      intro hlength
      match rest, hlength with
      | [b0, b1, b2, b3], _ => exact ⟨le32 b0 b1 b2 b3, (bytes32_le32 b0 b1 b2 b3).symm, rfl⟩
    cases i with
    | retire | armOn | disarm | suspend | resume | give =>
      cases hi
      have hlength : c.body.length = 1 := by simpa [bodyLengths] using hlength
      exact exec_entryChecks (fun _ => rfl) ht hlength rfl ⟨_, withBody_some _ _ (hone hlength)⟩
    | armAt | retime =>
      cases hi
      have hlength : c.body.length = 5 := by simpa [bodyLengths] using hlength
      obtain ⟨w, -, hread⟩ := hfive hlength
      exact exec_entryChecks (fun _ => rfl) ht hlength rfl ⟨_, withBody_some _ _ hread⟩
    | nudge =>
      cases hi
      have hlength : c.body.length = 5 := by simpa [bodyLengths] using hlength
      obtain ⟨w, hrest, hread⟩ := hfive hlength
      have hoffset : w ≠ 0x80000000 := fun hw => hnudge rfl (by rw [hrest, hw])
      have hnudge : readNudgeBody c.body = some (entryOfByte b, w) := by
        simpa [readNudgeBody, hread] using hoffset
      exact exec_entryChecks (fun _ => rfl) ht hlength rfl ⟨_, withBody_some _ _ hnudge⟩
    | unknown code' c' =>
      rw [commandOf] at hi
      split at hi
      · cases hi
      · next hunknown =>
        cases hi
        have hknown : ∀ x ∈ ([0x11, 0x14, 0x16, 0x17, 0x18, 0x19, 0x1A, 0x1B, 0x1D] : List Byte),
            knownCodes.contains x = true := by decide
        exact absurd (hknown _ hcode) hunknown
    | _ => cases hi <;> exact absurd hcode (by decide)
  · have hread : readNudgeBody c.body = none := by
      rw [hbody]
      rfl
    rw [exec_run (fun _ => rfl) ht (by rw [hbody]; rfl) rfl, runNudge, withBody_none _ _ hread, refusedNext]

end Sys2Proof.Proofs
end

section
/-!
PROOFS. The part-level commands: STATUS and RESET_PART (R139, R141, R142, R158), and the values a reset leaves.
-/
namespace Sys2Proof.Machine

/-! ### The summary of the time base (Table 10.15) -/

/-- The bits that STATUS and READ_TIME share, with two more flags above them. -/
theorem summary_bits (synthetic : Bool) (synth : SynthState) (changing hold five six : Bool) :
    let b := bitAt synthetic 0 ||| (synthByte synth <<< 1) ||| bitAt changing 3 ||| bitAt hold 4 ||| bitAt five 5 |||
      bitAt six 6
    b.getLsbD 0 = synthetic ∧ b.extractLsb' 1 2 = (synthByte synth).setWidth 2 ∧ b.getLsbD 3 = changing ∧
      b.getLsbD 4 = hold ∧ b.getLsbD 5 = five ∧ b.getLsbD 6 = six ∧ b.getLsbD 7 = false := by
  cases synth <;> decide +revert

/-! ### The values of a reset (R142) -/

section
variable {s : State}

theorem resetLaw_resetBlocks (s : State) (cause : ResetCause) {phase : Phase} {spi : SpiPort} {link : LinkPort}
    (hspi : spi.transaction = none ∧ spi.buffer = [] ∧ spi.bufferCount = 0 ∧ spi.lastResult = .none)
    (hlink : link.pendingSettings = none ∧ link.lastError = .none ∧ link.receiver = .hunting ∧
      link.insideChar = false ∧ link.transmitter = .quiet ∧ link.rxdHigh = false ∧ link.idleSamples = 0 ∧
      link.sinceChar = 0) :
    ResetLaw { s.resetBlocks cause link with phase := phase, spi := spi } where
  free := s.entry_resetBlocks cause link
  quotas := rfl
  due := rfl
  levels := ⟨rfl, rfl⟩
  claims := ⟨fun _ => get_replicate _ _, fun _ => get_replicate _ _⟩
  groups g := by simp [State.resetBlocks, LineUnit.initial, Group.initial]
  triggers k := by simp [State.resetBlocks, Trigger.initial]
  notices := ⟨rfl, rfl, rfl, rfl⟩
  synth := ⟨rfl, rfl, rfl, rfl⟩
  source := ⟨rfl, rfl, rfl⟩
  count := ⟨rfl, rfl, rfl, rfl, rfl⟩
  slots := ⟨rfl, rfl, rfl⟩
  spi := hspi
  link := by
    obtain ⟨hpending, herror, hreceiver, hinside, htransmitter, hhigh, hidle, hsince⟩ := hlink
    exact ⟨hpending, herror, hreceiver, hinside, Nat.le_zero.1 (LinkPort.idleCount_of_zero hidle 0), htransmitter, hhigh,
      hidle, hsince⟩

theorem resetLaw_commandReset (s : State) (sdi : List Bool) : ResetLaw (s.commandReset sdi) :=
  resetLaw_resetBlocks s .command (phase := s.phase) ⟨rfl, rfl, rfl, rfl⟩ ⟨rfl, rfl, rfl, rfl, rfl, rfl, rfl, rfl⟩

theorem State.trigger_commandReset (s : State) (sdi : List Bool) (k : Fin 8) :
    (s.commandReset sdi).triggers.get k = Trigger.initial (s.triggers.get k).level (s.triggers.get k).sample :=
  get_map _ _ _

/-! ### The bits of a transaction (R146, R152, R158) -/

theorem padded_append (a bits : List Bool) (n : Nat) : padded (a ++ bits) (a.length + n) = a ++ padded bits n := by
  simp only [padded, List.take_length_add_append, List.length_append, List.append_assoc]
  congr 3
  omega

theorem padded_append_short (a bits : List Bool) {n : Nat} (h : n ≤ a.length) : padded (a ++ bits) n = a.take n := by
  have hzero : n - (a ++ bits).length = 0 := by
    rw [List.length_append]
    omega
  rw [padded, hzero, List.take_append_of_le_length h, List.replicate_zero, List.append_nil]

/-- The bits that a transaction of a kind shifts out after its status byte. -/
def Transaction.dataBits (x : Transaction) (kind : Byte) : List Bool :=
  if kind = 0x5A then ((x.copy.map responseBytes).getD []).flatMap spiBits else []

theorem kindOf_fetch (kind : Byte) : kindOf kind = .fetch ↔ kind = 0x5A := by
  unfold kindOf Config.kindCommand Config.kindFetch Config.kindPoll
  constructor
  · intro h
    repeat' split at h
    all_goals first
      | assumption
      | cases h
  · rintro rfl
    rfl

theorem Transaction.outBits_kind (x : Transaction) (kind : Byte) :
    x.outBits (some (kindOf kind)) = spiBits x.status ++ x.dataBits kind := by
  unfold Transaction.outBits Transaction.dataBits
  congr 1
  split
  · next h => rw [if_pos ((kindOf_fetch kind).1 (Option.some.inj h))]
  · next h => rw [if_neg fun hk => h (congrArg some ((kindOf_fetch kind).2 hk))]

/-- The bits that an open transaction has shifted out after a kind byte and more. -/
theorem Transaction.padded_outBits (x : Transaction) (kind : Byte) (rest : List Bool) :
    padded (x.outBits (kindAfter (spiBits kind ++ rest))) (spiBits kind ++ rest).length =
      spiBits x.status ++ padded (x.dataBits kind) rest.length := by
  rw [kindAfter_spiBits, x.outBits_kind, List.length_append]
  exact padded_append _ _ _

/-- Up to the end of the status byte a transaction has shifted out nothing else, whatever its kind. -/
theorem Transaction.padded_outBits_short (x : Transaction) (kind : Option SpiKind) {n : Nat} (h : n ≤ 8) :
    padded (x.outBits kind) n = (spiBits x.status).take n :=
  padded_append_short (spiBits x.status) _ h

end

end Sys2Proof.Machine

namespace Sys2Proof.Proofs
open Sys2Proof.Machine

/-- Settles O9: the second byte of the STATUS record is the summary of the time base. -/
theorem statusReport : Obligations.StatusReport := by
  intro c s ht hbody
  obtain ⟨h0, h1, h3, h4, h5, h6, h7⟩ := summary_bits (decide (s.time.source = .synth)) s.time.synth
    s.time.changeover.isSome s.time.hold s.time.frozen false
  simp only [bitAt_false, BitVec.ofNat_eq_ofNat, BitVec.or_zero] at h0 h1 h3 h4 h5 h6 h7
  refine ⟨timeSummary s.time ||| bitAt s.time.frozen 5, ?_, h0, h1, h3, h4, h5, ?_⟩
  · rw [exec_run (fun _ => rfl) ht (by rw [hbody]; rfl) rfl]
    cases hsrc : c.src <;> simp only [okNext, runStatus] <;> rfl
  · apply BitVec.eq_of_getLsbD_eq
    intro i hi
    have hi : i = 0 ∨ i = 1 := by omega
    obtain rfl | rfl := hi
    · exact (BitVec.getLsbD_extractLsb' ..).trans h6
    · exact (BitVec.getLsbD_extractLsb' ..).trans h7

/-- Settles O10: a command reset leaves the reset values, and cuts an open transaction after its status byte or where it
stands. -/
theorem resetPart : Obligations.ResetPart := by
  intro c sdi s ht hsrc hbody
  refine ⟨(during s c).commandReset sdi, ?_, resetLaw_commandReset _ _, rfl, rfl, rfl, rfl, fun k => ?_, rfl, rfl, rfl, rfl,
    rfl, fun hnone => ?_, fun x hx => ⟨fun hshort => ?_, fun kind rest hsdi => ?_⟩⟩
  · rw [exec_run (fun _ => rfl) ht (by rw [hbody]; rfl) (by rw [hsrc]; rfl)]
    rfl
  · rw [State.trigger_commandReset]
    exact ⟨rfl, rfl⟩
  · show SpiPort.cutAfter s.spi sdi = s.spi.cut
    simp [SpiPort.cutAfter, hnone]
  · show SpiPort.cutAfter s.spi sdi = _
    rw [SpiPort.cutAfter, hx]
    simp only
    rw [x.padded_outBits_short _ hshort, List.take_append_drop]
  · show SpiPort.cutAfter s.spi sdi = _
    rw [SpiPort.cutAfter, hx, hsdi]
    simp only
    rw [x.padded_outBits, List.drop_eq_nil_of_le (by simp), List.append_nil, List.append_assoc]
    rfl

end Sys2Proof.Proofs
end

section
/-!
PROOFS. Each reader of a body against the bytes that write its arguments (Tables 10.10, 10.11): it reads a value exactly
from the bytes of that value, and nothing from other bytes.
-/
namespace Sys2Proof.Machine

/-! ### Numbers, enumerations and flags -/

/-- A number below n in a byte. -/
theorem byteIndex_iff {n : Nat} (hn : n ≤ 256) (b : Byte) (x : Fin n) :
    (if h : b.toNat < n then some (⟨b.toNat, h⟩ : Fin n) else none) = some x ↔ b = BitVec.ofNat 8 x.val := by
  have hx : (BitVec.ofNat 8 x.val).toNat = x.val := by
    rw [BitVec.toNat_ofNat, Nat.mod_eq_of_lt (Nat.lt_of_lt_of_le x.isLt hn)]
  constructor
  · intro h
    split at h
    · cases h
      simp
    · cases h
  · rintro rfl
    rw [dif_pos (by rw [hx]; exact x.isLt)]
    exact congrArg some (Fin.ext hx)

theorem readLine_iff (b : Byte) (l : Fin 16) : readLine b = some l ↔ b = BitVec.ofNat 8 l.val :=
  byteIndex_iff (by decide) b l

theorem readGroup_iff (b : Byte) (g : Fin 4) : readGroup b = some g ↔ b = BitVec.ofNat 8 g.val :=
  byteIndex_iff (by decide) b g

theorem readTriggerNumber_iff (b : Byte) (k : Fin 8) : readTriggerNumber b = some k ↔ b = BitVec.ofNat 8 k.val :=
  byteIndex_iff (by decide) b k

/-- A field of fewer bits in a byte. -/
theorem byteField_iff {w : Nat} (hw : w ≤ 8) (b : Byte) (x : BitVec w) :
    (if b.toNat < 2 ^ w then some (b.setWidth w) else none) = some x ↔ b = x.setWidth 8 := by
  have hpow : 2 ^ w ≤ 2 ^ 8 := Nat.pow_le_pow_right (by decide) hw
  have hx : (x.setWidth 8).toNat = x.toNat := by
    rw [BitVec.toNat_setWidth, Nat.mod_eq_of_lt (Nat.lt_of_lt_of_le x.isLt hpow)]
  constructor
  · intro h
    split at h
    · next hlt =>
      cases h
      apply BitVec.eq_of_toNat_eq
      rw [hx, BitVec.toNat_setWidth, Nat.mod_eq_of_lt hlt]
    · cases h
  · rintro rfl
    rw [if_pos (by rw [hx]; exact x.isLt)]
    refine congrArg some (BitVec.eq_of_toNat_eq ?_)
    rw [BitVec.toNat_setWidth, hx, Nat.mod_eq_of_lt x.isLt]

theorem readIndex_iff (b : Byte) (i : BitVec 3) : readIndex b = some i ↔ b = i.setWidth 8 := byteField_iff (by decide) b i

theorem readNibble_iff (b : Byte) (x : BitVec 4) : readNibble b = some x ↔ b = x.setWidth 8 :=
  byteField_iff (by decide) b x

theorem readSwitch_iff (b : Byte) (on : Bool) : readSwitch b = some on ↔ b = if on then 1 else 0 := by
  unfold readSwitch
  split
  · next h => cases on <;> simp [h]
  · split
    · next h => cases on <;> simp [h]
    · cases on <;> simp_all

theorem readPort_iff (b : Byte) (p : Port) : readPort b = some p ↔ b = portByte p := by
  unfold readPort
  split
  · next h => cases p <;> simp [h, portByte]
  · split
    · next h => cases p <;> simp [h, portByte]
    · cases p <;> simp_all [portByte]

theorem readStep_iff (b : Byte) (x : StepSize) : readStep b = some x ↔ b = if x = .one then 1 else 2 := by
  unfold readStep
  split
  · next h => cases x <;> simp [h]
  · split
    · next h => cases x <;> simp [h]
    · cases x <;> simp_all

theorem readPeriod_iff (w x : Word) : readPeriod w = some x ↔ x.msb = false ∧ w = x := by
  unfold readPeriod
  split
  · next h =>
    refine iff_of_false nofun ?_
    rintro ⟨hx, rfl⟩
    exact Bool.false_ne_true (hx.symm.trans h)
  · next h =>
    rw [Option.some.injEq]
    refine ⟨?_, And.right⟩
    rintro rfl
    exact ⟨Bool.not_eq_true _ ▸ h, rfl⟩

theorem readDistance_iff (w x : Word) : readDistance w = some x ↔ x.msb = false ∧ x ≠ 0 ∧ w = x := by
  unfold readDistance
  split
  · next h =>
    refine iff_of_false nofun ?_
    rintro ⟨hx, hzero, rfl⟩
    rw [hx, Bool.false_or, beq_iff_eq] at h
    exact hzero h
  · next h =>
    rw [Option.some.injEq]
    refine ⟨?_, fun hand => hand.2.2⟩
    rintro rfl
    simpa using h

/-- An optional part is read from the bytes that write it, which are its value's when it is present and 0 when it is
absent (R183). -/
theorem readOptional_iff {α : Type} {value : Option α} {zero : Bool} {Writes : Option α → Prop}
    (hsome : ∀ v, value = some v ↔ Writes (some v)) (hnone : zero = true ↔ Writes none) (present : Bool) (x : Option α) :
    readOptional present value zero = some x ↔ present = x.isSome ∧ Writes x := by
  unfold readOptional
  cases present with
  | true => cases x <;> simp [← hsome]
  | false => cases x <;> simp [← hnone]

theorem readOptional_period (present : Bool) (w : Word) (x : Option Word) :
    readOptional present (readPeriod w) (w == 0) = some x ↔
      present = x.isSome ∧ (∀ v, x = some v → v.msb = false) ∧ w = x.getD 0 :=
  readOptional_iff (Writes := fun x => (∀ v, x = some v → v.msb = false) ∧ w = x.getD 0)
    (fun v => by simp [readPeriod_iff]) (by simp) present x

theorem extractLsb'_eq_zero_iff (b : Byte) (k n : Nat) :
    b.extractLsb' k n = 0 ↔ ∀ i, i < n → b.getLsbD (k + i) = false := by
  constructor
  · intro h i hi
    have hbit := congrArg (fun x => x.getLsbD i) h
    simpa [BitVec.getLsbD_extractLsb', hi] using hbit
  · intro h
    apply BitVec.eq_of_getLsbD_eq
    intro i hi
    rw [BitVec.getLsbD_extractLsb', h i hi]
    simp

/-- A byte is known by its eight bits. -/
theorem byte_eq_iff (a b : Byte) : a = b ↔ ∀ i, i < 8 → a.getLsbD i = b.getLsbD i :=
  ⟨fun h _ _ => by rw [h], fun h => BitVec.eq_of_getLsbD_eq fun i hi => h i hi⟩

theorem extractLsb'_succ_eq_zero (b : Byte) (k n : Nat) :
    b.extractLsb' k (n + 1) = 0 ↔ b.getLsbD k = false ∧ b.extractLsb' (k + 1) n = 0 := by
  rw [extractLsb'_eq_zero_iff, extractLsb'_eq_zero_iff]
  constructor
  · intro h
    exact ⟨h 0 (by omega), fun i hi => (congrArg b.getLsbD (by omega)).trans (h (i + 1) (by omega))⟩
  · rintro ⟨hk, h⟩ i hi
    cases i with
    | zero => exact hk
    | succ i => exact (congrArg b.getLsbD (by omega)).trans (h i (by omega))

theorem or_zero_byte (b : Byte) : b ||| 0 = b := BitVec.or_zero

/-- A presence byte of three flags (R183). -/
theorem flags_iff (p : Byte) (a b c : Bool) :
    p = bitAt a 0 ||| bitAt b 1 ||| bitAt c 2 ↔
      p.getLsbD 0 = a ∧ p.getLsbD 1 = b ∧ p.getLsbD 2 = c ∧ p.extractLsb' 3 5 = 0 := by
  have hbit : ∀ i, (bitAt a 0 ||| bitAt b 1 ||| bitAt c 2).getLsbD i =
      (a && decide (i = 0) || b && decide (i = 1) || c && decide (i = 2)) := by
    intro i
    rw [BitVec.getLsbD_or, BitVec.getLsbD_or, getLsbD_bitAt _ _ _ (by decide), getLsbD_bitAt _ _ _ (by decide),
      getLsbD_bitAt _ _ _ (by decide)]
  rw [extractLsb'_eq_zero_iff, byte_eq_iff]
  simp only [hbit]
  constructor
  · intro h
    refine ⟨by simpa using h 0 (by decide), by simpa using h 1 (by decide), by simpa using h 2 (by decide), fun i hi => ?_⟩
    rw [h (3 + i) (by omega)]
    simp
    omega
  · rintro ⟨rfl, rfl, rfl, hzero⟩ i hi
    obtain rfl | rfl | rfl | hge : i = 0 ∨ i = 1 ∨ i = 2 ∨ 3 ≤ i := by omega
    · simp
    · simp
    · simp
    · have h := hzero (i - 3) (by omega)
      rw [Nat.add_sub_cancel' hge] at h
      rw [h]
      simp
      omega

theorem two_flags_iff (p : Byte) (a b : Bool) :
    p = bitAt a 0 ||| bitAt b 1 ↔ p.getLsbD 0 = a ∧ p.getLsbD 1 = b ∧ p.extractLsb' 2 6 = 0 := by
  rw [extractLsb'_succ_eq_zero, ← flags_iff, bitAt_false, or_zero_byte]

theorem one_flag_iff (p : Byte) (a : Bool) : p = bitAt a 0 ↔ p.getLsbD 0 = a ∧ p.extractLsb' 1 7 = 0 := by
  rw [extractLsb'_succ_eq_zero, ← two_flags_iff, bitAt_false, or_zero_byte]

/-! ### Actions (Table 1.2) -/

/-- A target in its range beside a value byte of 0. -/
theorem readTarget_iff {n : Nat} {read : Byte → Option (Fin n)} (hread : ∀ b y, read b = some y ↔ b = BitVec.ofNat 8 y.val)
    (f : Fin n → Action) (target value : Byte) (x : Action) :
    (if value = 0 then (read target).map f else none) = some x ↔
      ∃ y, f y = x ∧ target = BitVec.ofNat 8 y.val ∧ value = 0 := by
  split
  · next hv =>
    rw [Option.map_eq_some_iff]
    exact ⟨fun ⟨y, hy, hx⟩ => ⟨y, hx, (hread _ _).1 hy, hv⟩, fun ⟨y, hx, hy, _⟩ => ⟨y, (hread _ _).2 hy, hx⟩⟩
  · next hv => exact iff_of_false nofun fun ⟨_, _, _, hzero⟩ => hv hzero

theorem actionBytes_of_readAction {kind target value : Byte} {x : Action} (h : readAction kind target value = some x) :
    [kind, target, value] = actionBytes x := by
  unfold readAction at h
  split at h
  · next hk =>
    split at h
    · next hzero =>
      obtain ⟨rfl, rfl⟩ := hzero
      cases h
      rw [hk]
      rfl
    · cases h
  · split at h
    · next hk =>
      obtain ⟨l, rfl, rfl, rfl⟩ := (readTarget_iff readLine_iff _ _ _ _).1 h
      rw [hk]
      rfl
    · split at h
      · next hk =>
        obtain ⟨l, rfl, rfl, rfl⟩ := (readTarget_iff readLine_iff _ _ _ _).1 h
        rw [hk]
        rfl
      · split at h
        · next hk =>
          obtain ⟨l, rfl, rfl, rfl⟩ := (readTarget_iff readLine_iff _ _ _ _).1 h
          rw [hk]
          rfl
        · split at h
          · next hk =>
            obtain ⟨g, rfl, rfl, rfl⟩ := (readTarget_iff readGroup_iff _ _ _ _).1 h
            rw [hk]
            rfl
          · split at h
            · next hk =>
              obtain ⟨g, rfl, rfl, rfl⟩ := (readTarget_iff readGroup_iff _ _ _ _).1 h
              rw [hk]
              rfl
            · split at h
              · next hk =>
                split at h
                · next g i hg hi =>
                  cases h
                  rw [hk, (readGroup_iff _ _).1 hg, (readIndex_iff _ _).1 hi]
                  rfl
                · cases h
              · cases h

theorem readAction_of_actionBytes {kind target value : Byte} {x : Action} (h : [kind, target, value] = actionBytes x) :
    readAction kind target value = some x := by
  cases x with
  | none =>
    cases h
    rfl
  | line op l =>
    have hl := (readLine_iff _ l).2 rfl
    cases op <;> cases h <;> exact congrArg (Option.map _) hl
  | stepFwd g | stepRev g =>
    cases h
    exact congrArg (Option.map _) ((readGroup_iff _ g).2 rfl)
  | loadPhase g i =>
    cases h
    have hg := (readGroup_iff _ g).2 rfl
    have hi := (readIndex_iff _ i).2 rfl
    simp [readAction, hg, hi]

theorem readAction_iff (kind target value : Byte) (x : Action) :
    readAction kind target value = some x ↔ [kind, target, value] = actionBytes x :=
  ⟨actionBytes_of_readAction, readAction_of_actionBytes⟩

theorem actionBytes_eq (x : Action) : ∃ kind target value, actionBytes x = [kind, target, value] := by
  cases x with
  | line op l => cases op <;> exact ⟨_, _, _, rfl⟩
  | _ => exact ⟨_, _, _, rfl⟩

theorem readOptional_action (present : Bool) (kind target value : Byte) (x : Option Action) :
    readOptional present (readAction kind target value) (kind == 0 && target == 0 && value == 0) = some x ↔
      present = x.isSome ∧ [kind, target, value] = actionBytes (x.getD .none) :=
  readOptional_iff (Writes := fun x => [kind, target, value] = actionBytes (x.getD .none))
    (fun v => readAction_iff _ _ _ v) (by simp [actionBytes, and_assoc]) present x

/-! ### STAGE (R48) -/

theorem readStageBody_iff (body : List Byte) (e : EntryId) (w : Staged) :
    readStageBody body = some (e, w) ↔
      (∀ period, w.period = some period → period.msb = false) ∧ body = stageBytes e w := by
  constructor
  · intro h
    unfold readStageBody at h
    repeat' split at h
    all_goals cases h
    next b presence p0 p1 p2 p3 kind target value _ _ period action hperiod haction hreserved =>
      obtain ⟨hp, hrange, hword⟩ := (readOptional_period _ _ _).1 hperiod
      obtain ⟨ha, hbytes⟩ := (readOptional_action _ _ _ _ _).1 haction
      refine ⟨hrange, ?_⟩
      rw [stageBytes, ← (two_flags_iff presence _ _).2 ⟨hp, ha, hreserved⟩, ← hbytes, ← hword, bytes32_le32]
      rfl
  · rintro ⟨hrange, rfl⟩
    obtain ⟨kind, target, value, hbytes⟩ := actionBytes_eq (w.action.getD .none)
    obtain ⟨hp, ha, hreserved⟩ := (two_flags_iff _ _ _).1 (rfl : bitAt w.period.isSome 0 ||| bitAt w.action.isSome 1 = _)
    have hperiod := (readOptional_period _ (w.period.getD 0) w.period).2 ⟨rfl, hrange, rfl⟩
    have haction := (readOptional_action _ kind target value w.action).2 ⟨rfl, hbytes.symm⟩
    simp only [stageBytes, hbytes, bytes32, List.cons_append, List.nil_append, readStageBody, le32_bytes32, hp, ha, hperiod,
      haction, hreserved]
    rfl

/-! ### CONFIG (R14) -/

theorem readLate_iff (b : BitVec 2) (late : LatePolicy) : readLate b = some late ↔ b = (lateByte late).setWidth 2 := by
  cases late <;> decide +revert

theorem lateByte_high (late : LatePolicy) {i : Nat} (h : 2 ≤ i) : (lateByte late).getLsbD i = false := by
  have hval : (lateByte late).toNat < 2 ^ i :=
    Nat.lt_of_lt_of_le (show (lateByte late).toNat < 2 ^ 2 by cases late <;> decide) (Nat.pow_le_pow_right (by decide) h)
  exact Nat.testBit_lt_two_pow hval

/-- The options byte of CONFIG and LOOK (Table 10.11). -/
theorem options_iff (o : Byte) (late : LatePolicy) (notify repark chain trigger : Bool) :
    o = lateByte late ||| bitAt notify 2 ||| bitAt repark 3 ||| bitAt chain 4 ||| bitAt trigger 5 ↔
      o.extractLsb' 0 2 = (lateByte late).setWidth 2 ∧ o.getLsbD 2 = notify ∧ o.getLsbD 3 = repark ∧
        o.getLsbD 4 = chain ∧ o.getLsbD 5 = trigger ∧ o.extractLsb' 6 2 = 0 := by
  have hbit : ∀ i, (lateByte late ||| bitAt notify 2 ||| bitAt repark 3 ||| bitAt chain 4 ||| bitAt trigger 5).getLsbD i =
      ((lateByte late).getLsbD i || notify && decide (i = 2) || repark && decide (i = 3) || chain && decide (i = 4) ||
        trigger && decide (i = 5)) := by
    intro i
    simp only [BitVec.getLsbD_or, getLsbD_bitAt _ 2 _ (by decide), getLsbD_bitAt _ 3 _ (by decide),
      getLsbD_bitAt _ 4 _ (by decide), getLsbD_bitAt _ 5 _ (by decide)]
  have hlow : o.extractLsb' 0 2 = (lateByte late).setWidth 2 ↔ ∀ i, i < 2 → o.getLsbD i = (lateByte late).getLsbD i := by
    constructor
    · intro h i hi
      have hb := congrArg (fun x => x.getLsbD i) h
      simpa [BitVec.getLsbD_extractLsb', BitVec.getLsbD_setWidth, hi] using hb
    · intro h
      apply BitVec.eq_of_getLsbD_eq
      intro i hi
      simp [hi, h i hi]
  rw [hlow, extractLsb'_eq_zero_iff, byte_eq_iff]
  simp only [hbit]
  have hhigh : ∀ i, 2 ≤ i → (lateByte late).getLsbD i = false := fun i hi => lateByte_high late hi
  constructor
  · intro h
    refine ⟨fun i hi => ?_, ?_, ?_, ?_, ?_, fun i hi => ?_⟩
    · obtain rfl | rfl : i = 0 ∨ i = 1 := by omega
      all_goals rw [h _ (by decide)]; simp
    · rw [h 2 (by decide), hhigh 2 (by decide)]; simp
    · rw [h 3 (by decide), hhigh 3 (by decide)]; simp
    · rw [h 4 (by decide), hhigh 4 (by decide)]; simp
    · rw [h 5 (by decide), hhigh 5 (by decide)]; simp
    · rw [h (6 + i) (by omega), hhigh (6 + i) (by omega)]
      simp
      omega
  · rintro ⟨hlow, rfl, rfl, rfl, rfl, hzero⟩ i hi
    obtain hi | rfl | rfl | rfl | rfl | hge : i < 2 ∨ i = 2 ∨ i = 3 ∨ i = 4 ∨ i = 5 ∨ 6 ≤ i := by omega
    · rw [hlow i hi]
      obtain rfl | rfl : i = 0 ∨ i = 1 := by omega
      all_goals simp
    · rw [hhigh 2 (by decide)]; simp
    · rw [hhigh 3 (by decide)]; simp
    · rw [hhigh 4 (by decide)]; simp
    · rw [hhigh 5 (by decide)]; simp
    · have h := hzero (i - 6) (by omega)
      rw [Nat.add_sub_cancel' hge] at h
      rw [h, hhigh i (by omega)]
      simp
      omega

/-- The byte of an optional chain target. -/
def chainByte : Option EntryId → Byte
  | some x => entryByte x
  | none => 0

/-- The byte of an optional trigger. -/
def triggerByte : Option (Fin 8) → Byte
  | some k => BitVec.ofNat 8 k.val
  | none => 0

theorem readOptional_chain (present : Bool) (b : Byte) (x : Option EntryId) :
    readOptional present (some (entryOfByte b)) (b == 0) = some x ↔ present = x.isSome ∧ b = chainByte x :=
  readOptional_iff (Writes := fun x => b = chainByte x)
    (fun v => by
      rw [Option.some.injEq]
      exact ⟨fun h => h ▸ (entryByte_entryOfByte b).symm, fun h => h ▸ entryOfByte_entryByte v⟩)
    (by rw [beq_iff_eq]; rfl) present x

theorem readOptional_trigger (present : Bool) (b : Byte) (x : Option (Fin 8)) :
    readOptional present (readTriggerNumber b) (b == 0) = some x ↔ present = x.isSome ∧ b = triggerByte x :=
  readOptional_iff (Writes := fun x => b = triggerByte x) (fun v => readTriggerNumber_iff b v)
    (by rw [beq_iff_eq]; rfl) present x

theorem configBytes_eq (e : EntryId) (f : EntryConfig) :
    configBytes e f = [entryByte e] ++ bytes16 f.tag ++ bytes32 f.period ++ bytes16 f.reps ++ bytes32 f.delay ++
      actionBytes f.action ++ [lateByte f.late ||| bitAt f.notify 2 ||| bitAt f.repark 3 ||| bitAt f.chain.isSome 4 |||
        bitAt f.trigger.isSome 5, chainByte f.chain, triggerByte f.trigger] := by
  unfold configBytes
  cases f.chain <;> cases f.trigger <;> rfl

theorem readConfigBody_iff (body : List Byte) (e : EntryId) (f : EntryConfig) :
    readConfigBody body = some (e, f) ↔ configInRange f ∧ body = configBytes e f := by
  constructor
  · intro h
    unfold readConfigBody at h
    repeat' split at h
    all_goals cases h
    next b t0 t1 p0 p1 p2 p3 r0 r1 d0 d1 d2 d3 kind target value options chainB triggerB _ _ _ _ _ _ period delay action
      late chain trigger hperiod hdelay haction hlate hchain htrigger hreserved =>
      obtain ⟨hzero, hrepark⟩ := hreserved
      obtain ⟨hpm, hp⟩ := (readPeriod_iff _ _).1 hperiod
      obtain ⟨hdm, hd0, hd⟩ := (readDistance_iff _ _).1 hdelay
      obtain ⟨hc, hcb⟩ := (readOptional_chain _ _ _).1 hchain
      obtain ⟨ht, htb⟩ := (readOptional_trigger _ _ _).1 htrigger
      refine ⟨⟨hpm, hdm, hd0, fun hr hn => hrepark ⟨hr, hn⟩⟩, ?_⟩
      have hoptions := (options_iff options late _ _ _ _).2 ⟨(readLate_iff _ _).1 hlate, rfl, rfl, hc, ht, hzero⟩
      rw [configBytes_eq]
      dsimp only
      rw [← hoptions, ← hcb, ← htb, ← (readAction_iff _ _ _ _).1 haction, ← hp, ← hd, bytes32_le32, bytes32_le32,
        bytes16_le16, bytes16_le16]
      rfl
  · rintro ⟨⟨hpm, hdm, hd0, hrepark⟩, rfl⟩
    obtain ⟨kind, target, value, hbytes⟩ := actionBytes_eq f.action
    obtain ⟨hlate, hn, hr, hc, ht, hzero⟩ := (options_iff _ f.late f.notify f.repark f.chain.isSome f.trigger.isSome).1 rfl
    have hlate := (readLate_iff _ _).2 hlate
    have hperiod := (readPeriod_iff f.period _).2 ⟨hpm, rfl⟩
    have hdelay := (readDistance_iff f.delay _).2 ⟨hdm, hd0, rfl⟩
    have haction := (readAction_iff _ _ _ _).2 hbytes.symm
    have hchain := (readOptional_chain _ (chainByte f.chain) f.chain).2 ⟨rfl, rfl⟩
    have htrigger := (readOptional_trigger _ (triggerByte f.trigger) f.trigger).2 ⟨rfl, rfl⟩
    have hrange : ¬ (f.repark = true ∧ f.trigger = none) := fun hand => hrepark hand.1 hand.2
    simp only [configBytes_eq, hbytes, bytes32, bytes16, List.cons_append, List.nil_append, readConfigBody, le32_bytes32,
      le16_bytes16, hlate, hn, hr, hc, ht, hzero, hperiod, hdelay, haction, hchain, htrigger, entryOfByte_entryByte]
    rw [if_pos ⟨trivial, hrange⟩]

/-! ### The group commands (R61, R67, R68, R69) -/

theorem readGroupModeBody_iff (body : List Byte) (g : Fin 4) (m : GroupMode) :
    readGroupModeBody body = some (g, m) ↔ body = groupModeBytes g m := by
  constructor
  · intro h
    unfold readGroupModeBody at h
    split at h
    · split at h
      · next g' on hg hm =>
        cases h
        rw [(readGroup_iff _ _).1 hg, (readSwitch_iff _ _).1 hm]
        cases on <;> rfl
      · cases h
    · cases h
  · rintro rfl
    have hg := (readGroup_iff _ g).2 rfl
    cases m with
    | lines => simp [readGroupModeBody, groupModeBytes, hg, readSwitch]
    | sequence => simp [readGroupModeBody, groupModeBytes, hg, readSwitch]

theorem vector8_toList {α : Type} (v : Vector α 8) :
    v.toList = [v.get 0, v.get 1, v.get 2, v.get 3, v.get 4, v.get 5, v.get 6, v.get 7] := by
  rw [toList_eq_map_finRange]
  rfl

theorem vector8_eq {α : Type} (v : Vector α 8) :
    #v[v.get 0, v.get 1, v.get 2, v.get 3, v.get 4, v.get 5, v.get 6, v.get 7] = v :=
  Vector.toList_inj.1 (vector8_toList v).symm

theorem readLoadPhasesBody_iff (body : List Byte) (g : Fin 4) (table : Vector (BitVec 4) 8) :
    readLoadPhasesBody body = some (g, table) ↔ body = loadPhasesBytes g table := by
  constructor
  · intro h
    unfold readLoadPhasesBody at h
    repeat' split at h
    all_goals cases h
    next h0 h1 h2 h3 h4 h5 h6 h7 hg =>
      rw [(readGroup_iff _ _).1 hg, (readNibble_iff _ _).1 h0, (readNibble_iff _ _).1 h1, (readNibble_iff _ _).1 h2,
        (readNibble_iff _ _).1 h3, (readNibble_iff _ _).1 h4, (readNibble_iff _ _).1 h5, (readNibble_iff _ _).1 h6,
        (readNibble_iff _ _).1 h7]
      rfl
  · rintro rfl
    have hg := (readGroup_iff _ g).2 rfl
    have hread : ∀ x : BitVec 4, readNibble (x.setWidth 8) = some x := fun x => (readNibble_iff _ x).2 rfl
    rw [loadPhasesBytes, vector8_toList]
    simp only [List.map_cons, List.map_nil, readLoadPhasesBody, hg, hread, vector8_eq]

theorem readOptional_index (present : Bool) (b : Byte) (x : Option (BitVec 3)) :
    readOptional present (readIndex b) (b == 0) = some x ↔ present = x.isSome ∧ b = (x.getD 0).setWidth 8 :=
  readOptional_iff (Writes := fun x => b = (x.getD 0).setWidth 8) (fun v => readIndex_iff b v)
    (by rw [beq_iff_eq]; rfl) present x

theorem readOptional_word (present : Bool) (w : Word) (x : Option Word) :
    readOptional present (some w) (w == 0) = some x ↔ present = x.isSome ∧ w = x.getD 0 :=
  readOptional_iff (Writes := fun x => w = x.getD 0) (by simp) (by simp) present x

/-- The byte of an optional step size. -/
def stepByte (x : Option StepSize) : Byte := if x = none then 0 else if x = some .one then 1 else 2

theorem readOptional_step (present : Bool) (b : Byte) (x : Option StepSize) :
    readOptional present (readStep b) (b == 0) = some x ↔ present = x.isSome ∧ b = stepByte x :=
  readOptional_iff (Writes := fun x => b = stepByte x) (fun v => by simp [readStep_iff, stepByte])
    (by rw [beq_iff_eq]; rfl) present x

theorem readSetGroupBody_iff (body : List Byte) (g : Fin 4) (w : GroupWrite) :
    readSetGroupBody body = some (g, w) ↔ body = setGroupBytes g w := by
  constructor
  · intro h
    unfold readSetGroupBody at h
    repeat' split at h
    all_goals cases h
    next b presence indexB p0 p1 p2 p3 stepB _ _ _ _ index position step hindex hposition hstep hreserved hg =>
      obtain ⟨hi, hib⟩ := (readOptional_index _ _ _).1 hindex
      obtain ⟨hp, hpw⟩ := (readOptional_word _ _ _).1 hposition
      obtain ⟨hs, hsb⟩ := (readOptional_step _ _ _).1 hstep
      have hpresence := (flags_iff presence _ _ _).2 ⟨hi, hp, hs, hreserved⟩
      have hstepB : (if step = none then 0 else if step = some .one then 1 else 2) = stepB := hsb.symm
      rw [setGroupBytes, ← hpresence, ← hib, ← hpw, hstepB, bytes32_le32, ← (readGroup_iff _ _).1 hg]
      rfl
  · rintro rfl
    obtain ⟨hi, hp, hs, hreserved⟩ := (flags_iff _ w.index.isSome w.position.isSome w.step.isSome).1 rfl
    have hg := (readGroup_iff _ g).2 rfl
    have hindex := (readOptional_index _ ((w.index.getD 0).setWidth 8) w.index).2 ⟨rfl, rfl⟩
    have hposition := (readOptional_word _ (w.position.getD 0) w.position).2 ⟨rfl, rfl⟩
    have hstep := (readOptional_step _ (stepByte w.step) w.step).2 ⟨rfl, rfl⟩
    have hstepB : (if w.step = none then (0 : Byte) else if w.step = some .one then 1 else 2) = stepByte w.step := rfl
    simp only [setGroupBytes, hstepB, bytes32, List.cons_append, List.nil_append, readSetGroupBody, le32_bytes32, hi, hp, hs,
      hg, hindex, hposition, hstep, hreserved]
    rfl

/-- Two words written as limits: their values, or zeros when absent. -/
theorem readOptional_limits (present : Bool) (a b : Word) (x : Option Limits) :
    readOptional present (if a.toInt ≤ b.toInt then some { min := a, max := b : Limits } else none) (a == 0 && b == 0) =
        some x ↔
      present = x.isSome ∧ (∀ m, x = some m → m.min.toInt ≤ m.max.toInt) ∧ a = (x.map Limits.min).getD 0 ∧
        b = (x.map Limits.max).getD 0 := by
  refine readOptional_iff (Writes := fun x => (∀ m, x = some m → m.min.toInt ≤ m.max.toInt) ∧
    a = (x.map Limits.min).getD 0 ∧ b = (x.map Limits.max).getD 0) (fun v => ?_) ?_ present x
  case refine_2 => simp
  simp only [Option.ite_none_right_eq_some, Option.some.injEq, Option.map_some, Option.getD_some, forall_eq']
  constructor
  · rintro ⟨hle, rfl⟩
    exact ⟨hle, rfl, rfl⟩
  · rintro ⟨hle, rfl, rfl⟩
    exact ⟨hle, rfl⟩

theorem setLimitsBytes_eq (g : Fin 4) (limits : Option Limits) :
    setLimitsBytes g limits = [BitVec.ofNat 8 g.val, bitAt limits.isSome 0] ++
      (bytes32 ((limits.map Limits.min).getD 0) ++ bytes32 ((limits.map Limits.max).getD 0)) := by
  cases limits <;> rfl

theorem readSetLimitsBody_iff (body : List Byte) (g : Fin 4) (limits : Option Limits) :
    readSetLimitsBody body = some (g, limits) ↔
      (∀ m, limits = some m → m.min.toInt ≤ m.max.toInt) ∧ body = setLimitsBytes g limits := by
  constructor
  · intro h
    unfold readSetLimitsBody at h
    split at h
    · next b presence a0 a1 a2 a3 b0 b1 b2 b3 =>
      split at h
      · next g' limits' hg hlimits =>
        split at h
        · next hreserved =>
          cases h
          obtain ⟨hp, hrange, hmin, hmax⟩ := (readOptional_limits _ _ _ _).1 hlimits
          refine ⟨hrange, ?_⟩
          rw [setLimitsBytes_eq, ← (one_flag_iff presence _).2 ⟨hp, hreserved⟩, ← hmin, ← hmax, bytes32_le32, bytes32_le32,
            ← (readGroup_iff _ _).1 hg]
          rfl
        · cases h
      · cases h
    · cases h
  · rintro ⟨hrange, rfl⟩
    obtain ⟨hp, hreserved⟩ := (one_flag_iff _ limits.isSome).1 rfl
    have hg := (readGroup_iff _ g).2 rfl
    have hlimits := (readOptional_limits _ ((limits.map Limits.min).getD 0) ((limits.map Limits.max).getD 0) limits).2
      ⟨rfl, hrange, rfl, rfl⟩
    simp only [setLimitsBytes_eq, bytes32, List.cons_append, List.nil_append, readSetLimitsBody, le32_bytes32, hp, hg,
      hlimits, hreserved]
    rfl

/-! ### SYNTH_SET (R114) -/

/-- N and L, read as a pair. -/
def readPair (n l : Byte) : Option (BitVec 4 × BitVec 4) :=
  (readNibble n).bind fun n => (readNibble l).map fun l => (n, l)

theorem readOptional_pair (present : Bool) (n l : Byte) (x : Option (BitVec 4 × BitVec 4)) :
    readOptional present (readPair n l) (n == 0 && l == 0) = some x ↔
      present = x.isSome ∧ n = ((x.map Prod.fst).getD 0).setWidth 8 ∧ l = ((x.map Prod.snd).getD 0).setWidth 8 := by
  refine readOptional_iff (Writes := fun x => n = ((x.map Prod.fst).getD 0).setWidth 8 ∧
    l = ((x.map Prod.snd).getD 0).setWidth 8) (fun v => ?_) ?_ present x
  case refine_2 => simp
  obtain ⟨vn, vl⟩ := v
  simp [readPair, Option.bind_eq_some_iff, readNibble_iff]

theorem readOptional_policy (present : Bool) (b : Byte) (x : Option LossPolicy) :
    readOptional present ((readSwitch b).map fun on => if on then LossPolicy.hold else LossPolicy.fallback) (b == 0) =
      some x ↔ present = x.isSome ∧ b = if x = some .hold then 1 else 0 := by
  refine readOptional_iff (Writes := fun x => b = if x = some .hold then 1 else 0) (fun v => ?_)
    ?_ present x
  case refine_2 => simp
  rw [Option.map_eq_some_iff]
  constructor
  · rintro ⟨on, hb, rfl⟩
    rw [(readSwitch_iff _ _).1 hb]
    cases on <;> rfl
  · rintro rfl
    cases v with
    | fallback => exact ⟨false, rfl, rfl⟩
    | hold => exact ⟨true, rfl, rfl⟩

/-- SYNTH_SET reads its two optional parts one after the other. -/
theorem readSynthSetBody_eq (presence n l policy : Byte) :
    readSynthSetBody [presence, n, l, policy] =
      (readOptional (presence.getLsbD 0) (readPair n l) (n == 0 && l == 0)).bind fun nl =>
        (readOptional (presence.getLsbD 1)
          ((readSwitch policy).map fun on => if on then LossPolicy.hold else LossPolicy.fallback) (policy == 0)).bind
          fun policy => if presence.extractLsb' 2 6 = 0 then some { nl := nl, policy := policy } else none := by
  unfold readPair
  cases hn : readNibble n <;> cases hl : readNibble l <;>
    simp only [readSynthSetBody, hn, hl, Option.bind_some, Option.bind_none, Option.map_some, Option.map_none] <;>
    generalize readOptional (presence.getLsbD 0) _ _ = a <;> generalize readOptional (presence.getLsbD 1) _ _ = b <;>
    cases a <;> cases b <;> rfl

theorem readSynthSetBody_iff (body : List Byte) (w : SynthWrite) :
    readSynthSetBody body = some w ↔ body = synthSetBytes w := by
  constructor
  · intro h
    have hshape : ∃ presence n l policy, body = [presence, n, l, policy] := by
      unfold readSynthSetBody at h
      split at h
      · exact ⟨_, _, _, _, rfl⟩
      · cases h
    obtain ⟨presence, n, l, policyB, rfl⟩ := hshape
    rw [readSynthSetBody_eq] at h
    obtain ⟨nl, hnl, h⟩ := Option.bind_eq_some_iff.1 h
    obtain ⟨policy, hpolicy, h⟩ := Option.bind_eq_some_iff.1 h
    obtain ⟨hreserved, h⟩ := Option.ite_none_right_eq_some.1 h
    cases h
    obtain ⟨hp, hn, hl⟩ := (readOptional_pair _ _ _ _).1 hnl
    obtain ⟨hq, hqb⟩ := (readOptional_policy _ _ _).1 hpolicy
    rw [synthSetBytes, ← (two_flags_iff presence _ _).2 ⟨hp, hq, hreserved⟩, ← hn, ← hl, ← hqb]
  · rintro rfl
    obtain ⟨hp, hq, hreserved⟩ := (two_flags_iff _ w.nl.isSome w.policy.isSome).1 rfl
    rw [synthSetBytes, readSynthSetBody_eq, hp, hq, (readOptional_pair _ _ _ w.nl).2 ⟨rfl, rfl, rfl⟩,
      (readOptional_policy _ _ w.policy).2 ⟨rfl, rfl⟩]
    exact if_pos hreserved

end Sys2Proof.Machine
end

section
/-!
PROOFS. The commands of the entry table (R10 to R21): QUOTA, ALLOC, RETIRE, CONFIG, LOOK, GIVE, EVICT and LEAVE.
-/
namespace Sys2Proof.Machine

/-! ### The run of a command, stage by stage -/

section
variable {i : Instr} {code : Byte} {c : Cmd} {s t : State} {p : Port} {n : Nat} {permit : Permit}
  {run : Port → List Byte → State → Answer} {α : Type} {read : List Byte → Option α} {x : α} {k : α → Answer}
  {answer : Answer} {e : EntryId} {a : Entry}

theorem refused_of {r : Result} (h : exec i s = .next (answer.finish code c)) (hr : answer = Answer.refuse r (during s c)) :
    exec i s = refusedNext code c r s := by rw [h, hr, refusedNext]

theorem ok_of {body : List Byte} (h : exec i s = .next (answer.finish code c)) (hok : answer = Answer.ok body t) :
    exec i s = okNext code c body t := by rw [h, hok, okNext]

/-- Stage 4 refuses a body that gives no arguments (R131). -/
theorem exec_range (hexec : ∀ s, exec i s = .next (takeCommand code (exactly n) permit run c s))
    (ht : s.takes code c = true) (hl : c.body.length = n) (hp : permit.admits c.src.port = true)
    (hread : read c.body = none) (hrun : run c.src.port c.body (during s c) = withBody read c.body (during s c) k) :
    exec i s = refusedNext code c .range s :=
  refused_of (exec_run hexec ht hl hp) (hrun.trans (withBody_none _ _ hread))

/-- Stage 4 reads the arguments of the command (R131). -/
theorem exec_body (hexec : ∀ s, exec i s = .next (takeCommand code (exactly n) permit run c s))
    (ht : s.takes code c = true) (hl : c.body.length = n) (hp : permit.admits c.src.port = true)
    (hread : read c.body = some x) (hrun : run c.src.port c.body (during s c) = withBody read c.body (during s c) k) :
    exec i s = .next ((k x).finish code c) := by
  rw [exec_run hexec ht hl hp, hrun, withBody_some _ _ hread]

/-- Stages 5 and 6 let an entry of the issuing port pass (R131). -/
theorem exec_owned {k : Entry → Answer}
    (h : exec i s = .next ((withOwned c.src.port e (during s c) k).finish code c)) (he : s.entry e = some a)
    (ho : a.owner = c.src.port) : exec i s = .next ((k a).finish code c) := by
  rw [h, withOwned_some (s := during s c) k he ho]

end

/-- A reader gives nothing where it gives no value. -/
theorem read_none {α : Type} {r : Option α} (h : ∀ x, r ≠ some x) : r = none := Option.eq_none_iff_forall_ne_some.2 h

/-! ### QUOTA and ALLOC -/

theorem portByte_le (p : Port) : (portByte p).toNat ≤ 1 := by cases p <;> decide

theorem readPort_none {b : Byte} (h : 1 < b.toNat) : readPort b = none :=
  read_none fun p hp => by
    have hle := portByte_le p
    rw [(readPort_iff b p).1 hp] at h
    omega

theorem readQuotaBody_port {b : Byte} {port : Port} (h : b = portByte port) (q0 q1 : Byte) :
    readQuotaBody [b, q0, q1] =
      if (le16 q0 q1).toNat ≤ 256 then some (port, (le16 q0 q1).toNat) else none := by
  simp only [readQuotaBody, (readPort_iff b port).2 h]

/-- The lowest FREE entry (R12). -/
theorem State.lowestFree_eq {s : State} {e : EntryId} (he : s.entry e = none)
    (hlow : ∀ x, x < e → (s.entry x).isSome = true) : s.lowestFree = some e := by
  refine List.find?_eq_some_iff_getElem.2 ⟨by simp [he], e.val, by simp, by simp, fun j hj => ?_⟩
  have h := hlow ⟨j, by omega⟩ (Fin.mk_lt_of_lt_val hj)
  simpa [Option.isSome_iff_ne_none] using h

theorem State.lowestFree_none {s : State} (h : ∀ e, (s.entry e).isSome = true) : s.lowestFree = none := by
  refine List.find?_eq_none.2 fun e _ => ?_
  simpa [Option.isSome_iff_ne_none] using h e

theorem State.lowestFree_some {s : State} {e : EntryId} (he : s.entry e = none) : ∃ x, s.lowestFree = some x := by
  refine Option.isSome_iff_exists.1 (List.find?_isSome.2 ⟨e, List.mem_finRange e, ?_⟩)
  simp [he]

/-! ### The queues -/

theorem NoticeUnit.marker_setQueue (n : NoticeUnit) (p : Port) (q : List NoticeItem) :
    (n.setQueue p q).marker =
      match p with
      | .spi => n.marker
      | .link => if q.isEmpty then false else n.marker || (n.queues.link.isEmpty && n.signalling.link) := by
  cases p <;> rfl

theorem NoticeUnit.moveItem_none {n : NoticeUnit} {e : EntryId} {p : Port} (h : entryReport e (n.queues.get p) = none) :
    n.moveItem e p = n := by
  simp only [NoticeUnit.moveItem, h]

theorem NoticeUnit.moveItem_some {n : NoticeUnit} {e : EntryId} {p : Port} {r : EntryReport}
    (h : entryReport e (n.queues.get p) = some r) :
    n.moveItem e p =
      (n.setQueue p (withoutEntry e (n.queues.get p))).setQueue p.other (n.queues.get p.other ++ [.entry e r]) := by
  simp only [NoticeUnit.moveItem, h]

theorem NoticeUnit.moveItem_signalling (n : NoticeUnit) (e : EntryId) (p : Port) :
    (n.moveItem e p).signalling = n.signalling := by
  cases h : entryReport e (n.queues.get p) with
  | none => rw [NoticeUnit.moveItem_none h]
  | some r => simp [NoticeUnit.moveItem_some h]

theorem NoticeUnit.moveItem_consume (n : NoticeUnit) (e : EntryId) (p : Port) :
    (n.moveItem e p).consume = n.consume := by
  cases h : entryReport e (n.queues.get p) with
  | none => rw [NoticeUnit.moveItem_none h]
  | some r => simp [NoticeUnit.moveItem_some h]

theorem NoticeUnit.get_setQueue_other (n : NoticeUnit) (p : Port) (q q' : List NoticeItem) :
    ((n.setQueue p q).setQueue p.other q').queues.get p = q := by
  cases p <;> rfl

theorem entryReport_nil (e : EntryId) : entryReport e [] = none := rfl

/-- The marker request after the item of an SPI entry moved to LINK (R19, R98). -/
theorem NoticeUnit.marker_moveItem_spi {n : NoticeUnit} {e : EntryId} {r : EntryReport}
    (h : entryReport e (n.queues.get .spi) = some r) :
    (n.moveItem e .spi).marker = (n.marker || (n.queues.link.isEmpty && n.signalling.link)) := by
  rw [NoticeUnit.moveItem_some h]
  exact if_neg (by simp)

/-- The marker request after the item of a LINK entry moved to SPI (R19, R99). -/
theorem NoticeUnit.marker_moveItem_link {n : NoticeUnit} {e : EntryId} {r : EntryReport}
    (h : entryReport e (n.queues.get .link) = some r) :
    (n.moveItem e .link).marker = (n.marker && !(n.moveItem e .link).queues.link.isEmpty) := by
  have hold : n.queues.link.isEmpty = false := by
    refine List.isEmpty_eq_false_iff.2 fun hnil => ?_
    rw [show n.queues.get .link = [] from hnil, entryReport_nil] at h
    cases h
  have hmarker : ∀ q : List NoticeItem,
      (if q.isEmpty then false else n.marker || (n.queues.link.isEmpty && n.signalling.link)) = (n.marker && !q.isEmpty) := by
    intro q
    cases q.isEmpty <;> simp [hold]
  rw [NoticeUnit.moveItem_some h]
  exact hmarker _

theorem NoticeUnit.marker_moveItem {n : NoticeUnit} {e : EntryId} {p : Port} {r : EntryReport}
    (h : entryReport e (n.queues.get p) = some r) :
    (n.moveItem e p).marker =
      match (generalizing := false) p with
      | .spi => n.marker || (n.queues.link.isEmpty && n.signalling.link)
      | .link => n.marker && !(n.moveItem e p).queues.link.isEmpty := by
  cases p with
  | spi => exact NoticeUnit.marker_moveItem_spi h
  | link => exact NoticeUnit.marker_moveItem_link h

/-! ### CONFIG and LOOK -/

theorem chainAllocated_iff {s : State} {chain : Option EntryId} :
    chainAllocated s chain = true ↔ ∀ x, chain = some x → (s.entry x).isSome = true := by
  cases chain <;> simp [chainAllocated]

/-- CONFIG on an allocated entry, check after check (R14). -/
theorem runConfig_eq {p : Port} {body : List Byte} {s : State} {e : EntryId} {f : EntryConfig} {a : Entry}
    (hread : readConfigBody body = some (e, f)) (he : s.entry e = some a) :
    runConfig p body s =
      if !chainAllocated s f.chain then Answer.refuse .noEntry s
      else if a.owner ≠ p then Answer.refuse .notOwner s
      else if !chainOwned s p f.chain then Answer.refuse .notOwner s
      else if a.state ≠ .idle then Answer.refuse .state s
      else if !s.lines.modeAdmits f.action then Answer.refuse .state s
      else if !(s.lines.claimsAction p f.action && s.lines.claimsTrigger p f.trigger) then
        Answer.refuse .notClaimed s
      else Answer.ok [] (s.setEntry e (some (a.configure f))) := by
  rw [runConfig, withBody_some _ _ hread]
  simp only [he]

/-! ### RETIRE -/

theorem filter_bne_eq (e : EntryId) (l : List EntryId) : l.filter (· != e) = l.filter (· ≠ e) :=
  List.filter_congr fun x _ => by simp [bne, Bool.beq_eq_decide_eq]

/-- RETIRE takes the chain to the entry out of every record of its owner alone. -/
theorem Entry.unchain_of_owner (b : Entry) (owner : Port) (e : EntryId) :
    (if b.owner = owner then b.unchain e else b) = if b.owner = owner ∧ b.chain = some e then { b with chain := none } else b := by
  unfold Entry.unchain
  by_cases ho : b.owner = owner <;> simp [ho]

/-! ### EVICT and LEAVE -/

theorem State.trigger_clearLink (s : State) (k : Fin 8) :
    s.clearLink.triggers.get k =
      if s.lines.triggerClaims.get k = some .link then
        { Trigger.initial (s.triggers.get k).level (s.triggers.get k).sample with
          park := (s.triggers.get k).park.filter fun e => !ownedBy .link (s.entry e) }
      else { s.triggers.get k with park := (s.triggers.get k).park.filter fun e => !ownedBy .link (s.entry e) } := by
  have hretired : s.retireLink.triggers.get k =
      { s.triggers.get k with park := (s.triggers.get k).park.filter fun e => !ownedBy .link (s.entry e) } :=
    get_map _ _ _
  have hmask : (s.retireLink.lines.triggerMask .link).getLsbD k.val = decide (s.lines.triggerClaims.get k = some .link) :=
    LineUnit.getLsbD_triggerMask _ _ _
  have h : s.clearLink.triggers.get k = if (s.retireLink.lines.triggerMask .link).getLsbD k.val then
      { Trigger.initial (s.retireLink.triggers.get k).level (s.retireLink.triggers.get k).sample with
        park := (s.retireLink.triggers.get k).park }
      else s.retireLink.triggers.get k := get_ofFn _ _
  rw [h, hmask, hretired]
  simp only [decide_eq_true_eq]

theorem State.lineClaim_clearLink (s : State) (l : Fin 16) :
    s.clearLink.lines.lineClaims.get l =
      if s.lines.lineClaims.get l = some .link then none else s.lines.lineClaims.get l := by
  have hmask : (s.retireLink.lines.lineMask .link).getLsbD l.val = decide (s.lines.lineClaims.get l = some .link) :=
    LineUnit.getLsbD_lineMask _ _ _
  refine (State.releaseClaims_lineClaims s.retireLink _ (s.retireLink.lines.triggerMask .link) l).trans ?_
  rw [hmask]
  simp only [decide_eq_true_eq]
  rfl

open Classical in
/-- Step 4 of EVICT keeps only a response that is being sent (R20). -/
theorem State.response_discardLinkSlots (s : State) :
    s.discardLinkSlots.ctl.responses.link =
      if ∃ chars sent, s.link.transmitter = .sending .response chars sent then s.ctl.responses.link else none := by
  cases htransmitter : s.link.transmitter with
  | quiet => simp [State.discardLinkSlots, PerPort.set, htransmitter]
  | sending frame chars sent => cases frame <;> simp [State.discardLinkSlots, PerPort.set, htransmitter]

theorem State.dueList_clearLink (s : State) :
    s.clearLink.dueList = s.dueList.filter fun e => !ownedBy .link (s.entry e) := by
  simp [State.clearLink, State.retireLink]

theorem State.triggerClaim_clearLink (s : State) (k : Fin 8) :
    s.clearLink.lines.triggerClaims.get k =
      if s.lines.triggerClaims.get k = some .link then none else s.lines.triggerClaims.get k := by
  have hmask : (s.retireLink.lines.triggerMask .link).getLsbD k.val = decide (s.lines.triggerClaims.get k = some .link) :=
    LineUnit.getLsbD_triggerMask _ _ _
  refine (State.releaseClaims_triggerClaims s.retireLink (s.retireLink.lines.lineMask .link) _ k).trans ?_
  rw [hmask]
  simp only [decide_eq_true_eq]
  rfl

end Sys2Proof.Machine

namespace Sys2Proof.Proofs
open Sys2Proof.Machine

/-- Settles O11: the quota written is read back, and the other port's is kept. -/
theorem quota : Obligations.Quota := by
  intro c s p q0 q1 ht hsrc hbody q
  have hl : c.body.length = 3 := by rw [hbody]; rfl
  have hp : Permit.admits .spiOnly c.src.port = true := by rw [hsrc]; rfl
  refine ⟨fun hbad => ?_, fun port hport hq => ?_⟩
  · have hread : readQuotaBody c.body = none := by
      rw [hbody]
      obtain hbad | hbad := hbad
      · simp only [readQuotaBody, readPort_none hbad]
      · have hbad : ¬ (le16 q0 q1).toNat ≤ 256 := Nat.not_le.2 hbad
        cases hport : readPort p <;> simp [readQuotaBody, hport, hbad]
    exact exec_range (fun _ => rfl) ht hl hp hread rfl
  · have hread : readQuotaBody c.body = some (port, q) := by
      rw [hbody, readQuotaBody_port hport, if_pos hq]
    have hrun := exec_body (i := .quota c) (fun _ => rfl) ht hl hp hread rfl
    refine ⟨fun hused => refused_of hrun (if_pos hused), fun hfits => ⟨s.quotas.set port q, ?_, by simp, by simp⟩⟩
    exact ok_of hrun (if_neg (Nat.not_lt.2 hfits))

/-- Settles O12: the resource checks come in their order, and the entry allocated is the named or the lowest FREE one. -/
theorem alloc : Obligations.Alloc := by
  intro c s ht hlength p
  have hl : (c.body.length == 0 || c.body.length == 1) = true := by
    rw [Bool.or_eq_true, beq_iff_eq, beq_iff_eq]
    omega
  have hrun := exec_run_of (i := .alloc c) (fun _ => rfl) ht hl rfl
  refine ⟨fun hquota => refused_of hrun (if_pos hquota), fun hroom => ?_⟩
  have hpass : runAlloc p c.body (during s c) =
      match s.lowestFree, readEntryBody c.body with
      | none, _ => Answer.refuse .full (during s c)
      | some e, none => allocate p e (during s c)
      | some _, some e => if (s.entry e).isSome then Answer.refuse .inUse (during s c) else allocate p e (during s c) :=
    if_neg (Nat.not_le.2 hroom)
  refine ⟨fun hall => refused_of hrun ?_, fun ⟨free, hfree⟩ => ⟨fun b hb hused => refused_of hrun ?_, fun e he hnamed =>
    ok_of hrun ?_⟩⟩
  · rw [hpass, State.lowestFree_none hall]
  · obtain ⟨low, hlow⟩ := State.lowestFree_some hfree
    have hread : readEntryBody c.body = some (entryOfByte b) := by rw [hb]; rfl
    rw [hpass, hlow, hread]
    exact if_pos hused
  · rw [hpass]
    obtain hb | ⟨hb, hlow⟩ := hnamed
    · obtain ⟨low, hlow⟩ := State.lowestFree_some he
      have hread : readEntryBody c.body = some e := by rw [hb]; rfl
      rw [hlow, hread]
      exact if_neg (by simp [he])
    · have hread : readEntryBody c.body = none := by rw [hb]; rfl
      rw [State.lowestFree_eq he hlow, hread]
      rfl

/-- Settles O13: the entry leaves its list, its item its owner's queue, and the chains that named it are cleared. -/
theorem retire : Obligations.Retire := by
  intro c s e a ht hbody he ho
  have hread : readEntryBody c.body = some e := by rw [hbody]; rfl
  have hbody := exec_body (i := .retire c) (fun _ => rfl) ht (by rw [hbody]; rfl) rfl hread rfl
  have hrun := exec_owned hbody he ho
  refine ⟨(during s c).retireEntry e a, ok_of hrun rfl, rfl, ?_, fun x hx => ?_, filter_bne_eq e _, fun k => ?_, ?_, ?_, ?_, ?_, ?_⟩
  · rw [State.entry_retireEntry, if_pos rfl]
  · rw [State.entry_retireEntry, if_neg hx]
    refine congrArg (Option.map · (s.entry x)) (funext fun b => ?_)
    exact b.unchain_of_owner a.owner e
  · rw [← filter_bne_eq]
    exact State.unlist_triggers (during s c) e k
  all_goals rw [State.retireEntry_notices]
  · exact NoticeUnit.setQueue_get _ _ _
  · exact NoticeUnit.setQueue_get_other _ _ _
  · exact NoticeUnit.setQueue_signalling _ _ _
  · exact NoticeUnit.setQueue_consume _ _ _
  · rw [NoticeUnit.marker_setQueue]
    cases hport : a.owner with
    | spi => simp
    | link =>
      have hnonempty : ∀ q : List NoticeItem, (withoutEntry e q).isEmpty = false → q.isEmpty = false := by
        intro q hq
        cases q with
        | nil => cases hq
        | cons => rfl
      cases hq : (withoutEntry e (s.notices.queues.get .link)).isEmpty with
      | true => simp [NoticeUnit.setQueue, PerPort.set, List.isEmpty_iff.1 hq]
      | false =>
        have hold : s.notices.queues.link.isEmpty = false := hnonempty _ hq
        have hne := List.isEmpty_eq_false_iff.1 hq
        simp [NoticeUnit.setQueue, PerPort.set, hq, hold, hne]

/-- Settles O14: the body is in the ranges of R14 exactly when it writes a configuration, and the checks come in order. -/
theorem config : Obligations.Config := by
  refine ⟨fun c s ht hl hbody => ?_, fun c s e f ht hrange hbody => ?_⟩
  · have hread : readConfigBody c.body = none := read_none fun ⟨e, f⟩ h => by
      obtain ⟨hrange, hwritten⟩ := (readConfigBody_iff _ _ _).1 h
      exact hbody e f hrange hwritten
    exact exec_range (fun _ => rfl) ht hl rfl hread rfl
  · have hread := (readConfigBody_iff _ _ _).2 ⟨hrange, hbody⟩
    have hl : c.body.length = 19 := by
      obtain ⟨kind, target, value, haction⟩ := actionBytes_eq f.action
      rw [hbody, configBytes_eq, haction]
      rfl
    have hrun := exec_run (i := .config c) (fun _ => rfl) ht hl rfl
    refine ⟨fun he => refused_of hrun ?_, fun a he => ?_⟩
    · have hfree : (during s c).entry e = none := he
      rw [runConfig, withBody_some _ _ hread]
      simp only [hfree]
    have hchecks := runConfig_eq (p := c.src.port) (s := during s c) hread he
    refine ⟨fun x hx hfree => refused_of hrun ?_, fun hallocated => ?_⟩
    · have hmissing : (!chainAllocated (during s c) f.chain) = true := by
        rw [hx]
        exact congrArg (fun r => !Option.isSome r) hfree
      exact hchecks.trans (if_pos hmissing)
    have hallocated : chainAllocated (during s c) f.chain = true := chainAllocated_iff.2 hallocated
    have hchecks := hchecks.trans (if_neg (by rw [hallocated]; exact Bool.false_ne_true))
    refine ⟨fun ho => refused_of hrun (hchecks.trans (if_pos ho)), fun ho => ?_⟩
    have hchecks := hchecks.trans (if_neg (Classical.not_not.2 ho))
    refine ⟨fun x hx howned => refused_of hrun ?_, fun howned => ?_⟩
    · have hforeign : (!chainOwned (during s c) c.src.port f.chain) = true := by
        rw [hx]
        exact congrArg (!·) howned
      exact hchecks.trans (if_pos hforeign)
    have howned : chainOwned (during s c) c.src.port f.chain = true := chainOwned_iff.2 howned
    have hchecks := hchecks.trans (if_neg (by rw [howned]; exact Bool.false_ne_true))
    refine ⟨fun hbad => refused_of hrun ?_, fun hidle hmode => ?_⟩
    · obtain hstate | hmode := hbad
      · exact hchecks.trans (if_pos hstate)
      · have hmode : (!s.lines.modeAdmits f.action) = true := by simpa using hmode
        exact hchecks.trans ((ite_congr rfl (fun _ => rfl) fun _ => if_pos hmode).trans (ite_self _))
    have hchecks := (hchecks.trans (if_neg (Classical.not_not.2 hidle))).trans (if_neg (by simpa using hmode))
    refine ⟨fun hbad => refused_of hrun ?_, fun haction htrigger => ?_⟩
    · exact hchecks.trans (if_pos (by obtain h | h := hbad <;> simp [h]))
    · exact ok_of hrun (hchecks.trans (if_neg (by simp [haction, htrigger])))

/-- Settles O15: the LOOK record, field by field. -/
theorem look : Obligations.Look := by
  intro c s e ht hbody
  have hread : readEntryBody c.body = some e := by rw [hbody]; rfl
  have hrun := exec_body (i := .look c) (fun _ => rfl) ht (by rw [hbody]; rfl) rfl hread rfl
  refine ⟨fun he => refused_of hrun ?_, fun a he => ⟨lookRecord e a (entryReport e (s.notices.queues.get a.owner)), ok_of hrun ?_, ?_⟩⟩
  · have he : (during s c).entry e = none := he
    simp only [he]
  · have he : (during s c).entry e = some a := he
    simp only [he]
    rfl
  obtain ⟨kind, target, value, haction⟩ := actionBytes_eq a.action
  obtain ⟨kind', target', value', hstaged⟩ := actionBytes_eq (a.staged.action.getD .none)
  obtain ⟨hlate, hn, hr, hc, hk, hzero⟩ := (options_iff _ a.late a.notify a.repark a.chain.isSome a.trigger.isSome).1 rfl
  obtain ⟨hperiod, hact, hreserved⟩ := (two_flags_iff _ a.staged.period.isSome a.staged.action.isSome).1 rfl
  simp only [lookRecord, haction, hstaged, bytes16, bytes32, List.cons_append, List.nil_append]
  refine ⟨rfl, rfl, fun o ho => ?_, rfl, ?_, fun o ho => ?_, rfl, ?_⟩
  · obtain rfl := Option.some.inj ho
    exact ⟨hlate, hn, hr, hc, hk, hzero⟩
  · cases a.state <;> rfl
  · obtain rfl := Option.some.inj ho
    exact ⟨hperiod, hact, hreserved⟩
  · cases entryReport e (s.notices.queues.get a.owner) <;> rfl

/-- Settles O16: the checks come in order; then the owner changes, and the item moves between the queues. -/
theorem give : Obligations.Give := by
  intro c s e a ht hbody he ho p refused bound
  have hread : readEntryBody c.body = some e := by rw [hbody]; rfl
  have hbody := exec_body (i := .give c) (fun _ => rfl) ht (by rw [hbody]; rfl) rfl hread rfl
  have hrun := exec_owned hbody he ho
  have hbound : (a.chain.isSome || s.chainTarget e) = true ↔ bound := by
    rw [Bool.or_eq_true, State.chainTarget_iff]
  refine ⟨fun hquota => refused_of hrun (if_pos hquota), fun hroom => ?_⟩
  have hroom := Nat.not_le.2 hroom
  refine ⟨fun hb => refused_of hrun ((if_neg hroom).trans (if_pos (hbound.2 hb))), fun hfree => ?_⟩
  have hfree := fun h => hfree (hbound.1 h)
  refine ⟨fun hclaims => refused_of hrun (((if_neg hroom).trans (if_neg hfree)).trans (if_pos ?_)), fun hclaims => ?_⟩
  · show (!s.lines.claimsEntry p.other a) = true
    rw [hclaims]
    rfl
  refine ⟨s.notices.moveItem e p, ok_of hrun (((if_neg hroom).trans (if_neg hfree)).trans (if_neg ?_)), ?_⟩
  · show ¬ (!s.lines.claimsEntry p.other a) = true
    rw [hclaims]
    exact Bool.false_ne_true
  refine ⟨?_, ?_, NoticeUnit.moveItem_none, fun r hr => ⟨?_, ?_, ?_⟩⟩
  · exact NoticeUnit.moveItem_signalling _ _ _
  · exact NoticeUnit.moveItem_consume _ _ _
  · rw [NoticeUnit.moveItem_some hr]
    exact NoticeUnit.get_setQueue_other _ _ _ _
  · rw [NoticeUnit.moveItem_some hr]
    exact NoticeUnit.setQueue_get _ _ _
  · exact NoticeUnit.marker_moveItem hr

/-- Settles O17: EVICT and LEAVE clear what LINK has, entry by entry, line by line and trigger by trigger. -/
theorem evictLeave : Obligations.EvictLeave := by
  refine ⟨fun c s b ht hsrc hbody hb => ?_, fun i code c s ht hcase => ?_⟩
  · have hp : Permit.admits .spiOnly c.src.port = true := by rw [hsrc]; rfl
    refine refused_of (exec_run (i := .evict c) (fun _ => rfl) ht (by rw [hbody]; rfl) hp) ?_
    rw [hbody]
    exact withBody_none _ _ (if_neg hb)
  have hother : ∀ k, s.lines.triggerClaims.get k ≠ some .link →
      (during s c).clearLink.lines.triggerClaims.get k = s.lines.triggerClaims.get k ∧
      (during s c).clearLink.triggers.get k = { s.triggers.get k with
        park := (s.triggers.get k).park.filter fun e => !ownedBy .link (s.entry e) } := fun k hk =>
    ⟨(State.triggerClaim_clearLink (during s c) k).trans (if_neg hk),
      (State.trigger_clearLink (during s c) k).trans (if_neg hk)⟩
  have hlink : ∀ k, s.lines.triggerClaims.get k = some .link →
      (during s c).clearLink.lines.triggerClaims.get k = none ∧
      (during s c).clearLink.triggers.get k =
        { Trigger.initial (s.triggers.get k).level (s.triggers.get k).sample with
          park := (s.triggers.get k).park.filter fun e => !ownedBy .link (s.entry e) } := fun k hk =>
    ⟨(State.triggerClaim_clearLink (during s c) k).trans (if_pos hk),
      (State.trigger_clearLink (during s c) k).trans (if_pos hk)⟩
  obtain ⟨rfl, rfl, hsrc, hbody⟩ | ⟨rfl, rfl, hport, hbody⟩ := hcase
  · have hp : Permit.admits .spiOnly c.src.port = true := by rw [hsrc]; rfl
    have hrun := exec_run (i := .evict c) (fun _ => rfl) ht (by rw [hbody]; rfl) hp
    refine ⟨(during s c).clearLink.discardLinkSlots, ok_of hrun (by rw [hbody]; rfl), rfl, State.entry_clearLink _,
      State.dueList_clearLink _, State.lineClaim_clearLink _, hother, hlink, State.clearLink_notices _, nofun,
      fun _ => ⟨?_, rfl, fun chars sent hsending => ?_, fun hquiet => ?_⟩⟩
    · show (s.ctl.commands.set c.src.port none).set .link none = ⟨none, none⟩
      rw [hsrc]
      rfl
    · rw [State.response_discardLinkSlots]
      exact if_pos ⟨chars, sent, hsending⟩
    · rw [State.response_discardLinkSlots]
      exact if_neg fun ⟨chars, sent, hsending⟩ => hquiet chars sent hsending
  · have hp : Permit.admits .linkOnly c.src.port = true := by rw [hport]; rfl
    have hrun := exec_run (i := .leave c) (fun _ => rfl) ht (by rw [hbody]; rfl) hp
    exact ⟨(during s c).clearLink, ok_of hrun rfl, rfl, State.entry_clearLink _, State.dueList_clearLink _,
      State.lineClaim_clearLink _, hother, hlink, State.clearLink_notices _, fun _ => rfl, nofun⟩

end Sys2Proof.Proofs
end

section
/-!
PROOFS. Arming (R26 to R48): the change of an entry from list to list, the grid, and the commands that arm an entry, park
it, hold it and move it in the due list.
-/
namespace Sys2Proof.Machine

/-! ### The change from list to list (R9) -/

theorem State.move_dueList (s : State) (e : EntryId) (a : Entry) :
    (s.move e a).dueList =
      match a.state with
      | .armed due => insertBy s.keyOf (difference due s.time.count) e (s.dueList.filter (· ≠ e))
      | _ => s.dueList.filter (· ≠ e) := by
  rw [← filter_bne_eq]
  exact State.place_dueList (s.unlist e) e a

theorem State.move_triggers (s : State) (e : EntryId) (a : Entry) (k : Fin 8) :
    (s.move e a).triggers.get k =
      { s.triggers.get k with
        park := (s.triggers.get k).park.filter (· ≠ e) ++
          if a.state = .parked ∧ a.trigger = some k then [e] else [] } := by
  rw [State.move, State.place_park, State.unlist_triggers, filter_bne_eq]

/-- In a sorted list the inserted entry stands behind every entry whose key is not greater, and before all others. -/
theorem insertBy_split_sorted (key : EntryId → Int) (n : Int) (e : EntryId) {l : List EntryId}
    (h : l.Pairwise fun x y => key x ≤ key y) :
    ∃ before after, insertBy key n e l = before ++ e :: after ∧ before ++ after = l ∧
      (∀ x ∈ before, key x ≤ n) ∧ ∀ x ∈ after, n < key x := by
  obtain ⟨before, after, hsplit, hl, hbefore, hhead⟩ := insertBy_split key n e l
  refine ⟨before, after, hsplit, hl, hbefore, ?_⟩
  cases after with
  | nil => simp
  | cons y after =>
    have hy : n < key y := hhead y rfl
    rw [← hl, List.pairwise_append] at h
    obtain ⟨-, hafter, -⟩ := h
    intro x hx
    obtain rfl | hx := List.mem_cons.1 hx
    · exact hy
    · exact Int.lt_of_lt_of_le hy (List.rel_of_pairwise_cons hafter hx)

/-! ### The grid (R34) -/

theorem ticksPast_of_neg {t now : Word} (h : difference t now < 0) : (ticksPast t now : Int) = -difference t now := by
  rw [ticksPast]
  omega

/-- The grid distance is the least whole multiple of the period, at least one, that is not below the distance past. -/
theorem gridDistance_spec {past p : Nat} (hpast : 0 < past) (hp : 0 < p) :
    ∃ k, 1 ≤ k ∧ gridDistance past p = k * p ∧ past ≤ k * p ∧ k * p < past + p ∧ ∀ j, j < k → j * p < past := by
  have hdiv := Nat.div_add_mod (past + p - 1) p
  have hmod := Nat.mod_lt (past + p - 1) hp
  have hcomm : (past + p - 1) / p * p = p * ((past + p - 1) / p) := Nat.mul_comm _ _
  refine ⟨(past + p - 1) / p, ?_, rfl, by omega, by omega, fun j hj => ?_⟩
  · exact (Nat.le_div_iff_mul_le hp).2 (by omega)
  · have hle : (j + 1) * p ≤ (past + p - 1) / p * p := Nat.mul_le_mul_right p hj
    rw [Nat.succ_mul] at hle
    omega

/-- A step of a whole number adds to a difference while the sum is one. -/
theorem difference_add {t now w : Word} {n : Int} (hw : w.toInt = n ∨ w.toInt = n - 4294967296)
    (hlow : -2147483648 ≤ difference t now + n) (hhigh : difference t now + n ≤ 2147483647) :
    difference (t + w) now = difference t now + n := by
  have hsum : t + w - now = (t - now) + w := by
    bv_omega
  have hadd := BitVec.toInt_add (t - now) w
  unfold difference at *
  rw [hsum, hadd, Int.bmod_def]
  omega

theorem toInt_ofNat_word {n : Nat} (h : n < 4294967296) :
    (BitVec.ofNat 32 n).toInt = n ∨ (BitVec.ofNat 32 n).toInt = (n : Int) - 4294967296 := by
  rw [BitVec.toInt_eq_toNat_cond, BitVec.toNat_ofNat, Nat.mod_eq_of_lt h]
  omega

theorem toNat_lt_of_msb {p : Word} (h : p.msb = false) : p.toNat < 2147483648 := by
  have := BitVec.msb_eq_false_iff_two_mul_lt.1 h
  omega

/-- The remaining distance as a number (R24). -/
theorem toNat_remainingDistance (due now : Word) : ((remainingDistance due now).toNat : Int) = max 0 (difference due now) := by
  have hrange := BitVec.toInt_eq_toNat_cond (due - now)
  have hlt := (due - now).isLt
  unfold remainingDistance
  unfold difference at *
  split
  · have hzero : (0 : Word).toNat = 0 := rfl
    omega
  · split at hrange <;> omega

/-! ### Late handling (R38) -/

section
variable {e : EntryId} {a : Entry} {target : Word} {s : State}

theorem armWithLate_ahead (h : 0 ≤ difference target s.time.count) :
    armWithLate e a target s = Answer.ok (bytes32 target ++ [0]) (s.move e { a with state := .armed target }) := by
  simp only [armWithLate, lateCommandArm, if_pos h]
  rfl

theorem armWithLate_fire (hlate : a.late = .fire) :
    armWithLate e a target s = Answer.ok (bytes32 target ++ [0]) (s.move e { a with state := .armed target }) := by
  simp only [armWithLate, lateCommandArm, hlate, ite_self]
  rfl

theorem armWithLate_skip (h : difference target s.time.count < 0) (hlate : a.late = .skip) (hp : a.period ≠ 0) :
    armWithLate e a target s =
      Answer.ok (bytes32 (firstGridPoint target s.time.count a.period) ++ [1])
        (s.move e { a with state := .armed (firstGridPoint target s.time.count a.period) }) := by
  have hnot : ¬ 0 ≤ difference target s.time.count := Int.not_le.2 h
  simp only [armWithLate, lateCommandArm, hlate, if_neg hnot, if_neg hp]
  rfl

theorem armWithLate_skipped (h : difference target s.time.count < 0) (hlate : a.late = .skip) (hp : a.period = 0) :
    armWithLate e a target s = Answer.refuse .lateSkipped s := by
  have hnot : ¬ 0 ≤ difference target s.time.count := Int.not_le.2 h
  simp only [armWithLate, lateCommandArm, hlate, if_neg hnot, if_pos hp]

theorem armWithLate_refuse (h : difference target s.time.count < 0) (hlate : a.late = .refuse) :
    armWithLate e a target s = Answer.refuse .late s := by
  have hnot : ¬ 0 ≤ difference target s.time.count := Int.not_le.2 h
  simp only [armWithLate, lateCommandArm, hlate, if_neg hnot]

end

/-! ### The bodies -/

theorem readEntryWordBody_bytes (e : EntryId) (w : Word) : readEntryWordBody (entryByte e :: bytes32 w) = some (e, w) := by
  simp [readEntryWordBody, bytes32, le32_bytes32]

theorem readArmInBody_bytes (e : EntryId) (w : Word) :
    readArmInBody (entryByte e :: bytes32 w) = (readDistance w).map fun d => (e, d) := by
  rw [readArmInBody, readEntryWordBody_bytes]

theorem readNudgeBody_bytes (e : EntryId) {w : Word} (h : w ≠ 0x80000000) :
    readNudgeBody (entryByte e :: bytes32 w) = some (e, w) := by
  rw [readNudgeBody, readEntryWordBody_bytes]
  exact if_neg h

theorem length_entryWord (e : EntryId) (w : Word) : (entryByte e :: bytes32 w).length = 5 := rfl

end Sys2Proof.Machine

namespace Sys2Proof.Proofs
open Sys2Proof.Machine

/-- Settles O18: an insertion into the sorted due list splits it at the new key. -/
theorem moveBetweenLists : Obligations.MoveBetweenLists := by
  intro s e a t others
  have hlist : t.dueList = _ := State.move_dueList s e a
  have hpast : t.armedPast = _ := State.move_armedPast s e a
  refine ⟨State.move_frame s e a, fun x hx => ?_, fun due hdue => ?_, ?_, fun x hx => ?_, fun hnot => ?_,
    fun due hdue hsorted => ?_, State.move_triggers s e a⟩
  · rw [hpast]
    cases hstate : a.state with
    | armed due => exact get_set_ne _ _ _ _ (hx due hstate)
    | _ => rfl
  · rw [hpast, hdue]
    exact get_set_self _ _ _
  · rw [State.move_entry, if_pos rfl]
  · rw [State.move_entry, if_neg hx]
  · rw [hlist]
    cases hstate : a.state with
    | armed due => exact absurd hstate (hnot due)
    | _ => rfl
  · rw [hlist, hdue]
    exact insertBy_split_sorted _ _ _ (List.Pairwise.sublist List.filter_sublist hsorted)

/-- Settles O19: the distance rounds up to a whole number of periods, and the sum does not wrap. -/
theorem firstGridPoint : Obligations.FirstGridPoint := by
  intro t now p hneg hmost hp hmsb
  have hpast := ticksPast_of_neg hneg
  have hmost : -2147483648 < difference t now := hmost
  have hpos : 0 < p.toNat := Nat.pos_of_ne_zero fun h => hp (BitVec.eq_of_toNat_eq h)
  have hlt := toNat_lt_of_msb hmsb
  obtain ⟨k, hk, hdist, hle, hbelow, hleast⟩ := gridDistance_spec (past := ticksPast t now) (by omega) hpos
  have hsum : difference (Machine.firstGridPoint t now p) now = difference t now + ((k * p.toNat : Nat) : Int) := by
    rw [Machine.firstGridPoint, hdist]
    exact difference_add (toInt_ofNat_word (by omega)) (by omega) (by omega)
  refine ⟨k, hk, by rw [Machine.firstGridPoint, hdist], hsum, by omega, by omega, fun j _ hj => ?_⟩
  have := hleast j hj
  omega

/-- Settles O20: the body is a staged record exactly when it is one written down, and the checks come in order. -/
theorem stage : Obligations.Stage := by
  refine ⟨fun c s ht hl hbody => ?_, fun c s e w ht hrange hbody => ?_⟩
  · have hread : readStageBody c.body = none := read_none fun ⟨e, w⟩ h => by
      obtain ⟨hrange, hwritten⟩ := (readStageBody_iff _ _ _).1 h
      exact hbody e w hrange hwritten
    exact exec_range (fun _ => rfl) ht hl rfl hread rfl
  · have hread := (readStageBody_iff _ _ _).2 ⟨hrange, hbody⟩
    have hl : c.body.length = 9 := by
      obtain ⟨kind, target, value, haction⟩ := actionBytes_eq (w.action.getD .none)
      rw [hbody, stageBytes, haction]
      rfl
    have hrun := exec_body (i := .stage c) (fun _ => rfl) ht hl rfl hread rfl
    refine ⟨fun he => refused_of hrun (withOwned_none (s := during s c) _ he), fun a he =>
      ⟨fun ho => refused_of hrun (withOwned_other (s := during s c) _ he ho), fun ho => ?_⟩⟩
    have hrun := exec_owned hrun he ho
    refine ⟨fun hmode => refused_of hrun (if_pos ?_), fun hmode => ?_⟩
    · show (!s.lines.modeAdmits (w.action.getD .none)) = true
      rw [hmode]
      rfl
    have hmode : ¬ (!s.lines.modeAdmits (w.action.getD .none)) = true := by simp [hmode]
    refine ⟨fun hclaim => refused_of hrun ((if_neg hmode).trans (if_pos ?_)), fun hclaim =>
      ok_of hrun ((if_neg hmode).trans (if_neg ?_))⟩
    · show (!s.lines.claimsAction c.src.port (w.action.getD .none)) = true
      rw [hclaim]
      rfl
    · show ¬ (!s.lines.claimsAction c.src.port (w.action.getD .none)) = true
      rw [hclaim]
      exact Bool.false_ne_true

/-- Settles O21: the checks in order, then late handling with left at repeat. -/
theorem armAt : Obligations.ArmAt := by
  intro c s e a t ht hbody he ho d refused arms
  have hread : readEntryWordBody c.body = some (e, t) := by rw [hbody, readEntryWordBody_bytes]
  have hrun := exec_body (i := .armAt c) (fun _ => rfl) ht (by rw [hbody, length_entryWord]) rfl hread rfl
  have hrun := exec_owned hrun he ho
  refine ⟨fun hstate => refused_of hrun (if_pos hstate), fun hidle => ?_⟩
  have hidle := Classical.not_not.2 hidle
  have harm : ¬ d < -2147418112 → exec (.armAt c) s =
      .next ((armWithLate e { a with left := a.reps } t (during s c)).finish 0x14 c) := fun hd =>
    hrun.trans (congrArg (fun x => Host.Outcome.next (Answer.finish 0x14 c x)) ((if_neg hidle).trans (if_neg hd)))
  refine ⟨fun hd => refused_of hrun ((if_neg hidle).trans (if_pos hd)), fun hd => ?_, fun hlow hd => ?_⟩
  · exact ok_of (harm (by omega)) (armWithLate_ahead (s := during s c) hd)
  have harm := harm (by omega)
  exact ⟨fun hlate => ok_of harm (armWithLate_fire (s := during s c) hlate),
    fun hlate hp => ok_of harm (armWithLate_skip (s := during s c) hd hlate hp),
    fun hlate hp => refused_of harm (armWithLate_skipped (s := during s c) hd hlate hp),
    fun hlate => refused_of harm (armWithLate_refuse (s := during s c) hd hlate)⟩

/-- Settles O22: ARM_IN and RESUME arm an entry a distance from the time count. -/
theorem armInResume : Obligations.ArmInResume := by
  refine fun c s e => ⟨fun d ht hbody => ?_, fun a ht hbody he ho => ?_⟩
  · have hl : c.body.length = 5 := by rw [hbody, length_entryWord]
    refine ⟨fun hbad => ?_, fun hd hmsb => ?_⟩
    · have hnone : readDistance d = none := read_none fun x hx => by
        obtain ⟨hmsb, hne, rfl⟩ := (readDistance_iff _ _).1 hx
        obtain h | h := hbad
        · exact hne h
        · rw [h] at hmsb
          cases hmsb
      have hread : readArmInBody c.body = none := by rw [hbody, readArmInBody_bytes, hnone]; rfl
      exact exec_range (fun _ => rfl) ht hl rfl hread rfl
    · have hread : readArmInBody c.body = some (e, d) := by
        rw [hbody, readArmInBody_bytes, (readDistance_iff d d).2 ⟨hmsb, hd, rfl⟩]
        rfl
      have hrun := exec_body (i := .armIn c) (fun _ => rfl) ht hl rfl hread rfl
      refine ⟨fun he => refused_of hrun (withOwned_none (s := during s c) _ he), fun a he =>
        ⟨fun ho => refused_of hrun (withOwned_other (s := during s c) _ he ho), fun ho hstate => ?_, fun ho hidle => ?_⟩⟩
      · exact refused_of (exec_owned hrun he ho) (if_pos hstate)
      · exact ok_of (exec_owned hrun he ho) (if_neg (Classical.not_not.2 hidle))
  · have hread : readEntryBody c.body = some e := by rw [hbody]; rfl
    have hrun := exec_body (i := .resume c) (fun _ => rfl) ht (by rw [hbody]; rfl) rfl hread rfl
    have hrun := exec_owned hrun he ho
    refine ⟨fun rem hheld => ok_of hrun ?_, fun hnot => refused_of hrun ?_⟩
    · simp only [hheld]
      rfl
    · cases hstate : a.state with
      | held rem => exact absurd hstate (hnot rem)
      | _ => rfl

/-- Settles O23: ARM_ON appends to the park list; DISARM and SUSPEND take an entry out of its list. -/
theorem parkDisarmSuspend : Obligations.ParkDisarmSuspend := by
  intro c s e a hbody he ho
  have hread : readEntryBody c.body = some e := by rw [hbody]; rfl
  have hl : c.body.length = 1 := by rw [hbody]; rfl
  refine ⟨fun ht => ?_, fun ht => ?_, fun ht => ?_⟩
  · have hrun := exec_body (i := .armOn c) (fun _ => rfl) ht hl rfl hread rfl
    have hrun := exec_owned hrun he ho
    refine ⟨fun hbad => refused_of hrun ?_, fun k hidle htrigger hnotin => ok_of hrun ?_⟩
    · cases hstate : a.state with
      | idle =>
        have htrigger : a.trigger = none := hbad.resolve_left (Classical.not_not.2 hstate)
        simp only [htrigger]
      | _ => rfl
    · have hpark : ((((during s c).move e { a with state := .parked }).triggers.get k).park).length =
          (s.triggers.get k).park.length + 1 := by
        have hfilter : (s.triggers.get k).park.filter (· ≠ e) = (s.triggers.get k).park :=
          List.filter_eq_self.2 fun x hx => by
            have hne : x ≠ e := fun h => hnotin (h ▸ hx)
            simpa using hne
        have htriggers := State.move_triggers (during s c) e { a with state := .parked } k
        rw [htriggers]
        show ((s.triggers.get k).park.filter (· ≠ e) ++ _).length = _
        rw [hfilter, if_pos ⟨rfl, htrigger⟩, List.length_append]
        rfl
      simp only [htrigger] at hpark
      simp only [hidle, htrigger, hpark]
  · have hrun := exec_body (i := .disarm c) (fun _ => rfl) ht hl rfl hread rfl
    have hrun := exec_owned hrun he ho
    exact ⟨fun hidle => refused_of hrun (if_pos hidle), fun hstate => ok_of hrun (if_neg hstate)⟩
  · have hrun := exec_body (i := .suspend c) (fun _ => rfl) ht hl rfl hread rfl
    have hrun := exec_owned hrun he ho
    refine ⟨fun hnot => refused_of hrun ?_, fun due hdue =>
      ⟨remainingDistance due s.time.count, ok_of hrun ?_, toNat_remainingDistance _ _⟩⟩
    · cases hstate : a.state with
      | armed due => exact absurd hstate (hnot due)
      | _ => rfl
    · simp only [hdue]
      rfl

/-- Settles O24: both commands come to the arm of the entry at its new due, with the record as it is. -/
theorem retimeNudge : Obligations.RetimeNudge := by
  intro i code c s e a w target d ht hbody he ho refused arms hcase
  have hl : c.body.length = 5 := by rw [hbody, length_entryWord]
  have hkey : ((∀ due, a.state ≠ .armed due) → refused .state) ∧
      ((∃ due, a.state = .armed due) →
        (2147483647 < d ∨ d < -2147418112 → refused .range) ∧
        (-2147418112 ≤ d → d ≤ 2147483647 → difference target s.time.count = d ∧
          exec i s = .next ((armWithLate e a target (during s c)).finish code c))) := by
    obtain ⟨rfl, rfl, rfl, rfl⟩ | ⟨rfl, rfl, hw, hd⟩ := hcase
    · have hread : readEntryWordBody c.body = some (e, target) := by rw [hbody, readEntryWordBody_bytes]
      have hrun := exec_body (i := .retime c) (fun _ => rfl) ht hl rfl hread rfl
      have hrun := exec_owned hrun he ho
      refine ⟨fun hnot => refused_of hrun ?_, fun ⟨due, hdue⟩ => ?_⟩
      · cases hstate : a.state with
        | armed due => exact absurd hstate (hnot due)
        | _ => rfl
      simp only [hdue] at hrun
      have hmax := BitVec.toInt_lt (x := target - s.time.count)
      refine ⟨fun hbad => refused_of hrun (if_pos (hbad.resolve_left ?_)), fun hlow _ => ⟨rfl, ?_⟩⟩
      · unfold difference
        omega
      · rw [hrun]
        exact congrArg (fun x => Host.Outcome.next (Answer.finish 0x1A c x)) (if_neg (Int.not_lt.2 hlow))
    · have hread : readNudgeBody c.body = some (e, w) := by rw [hbody, readNudgeBody_bytes e hw]
      have hrun := exec_body (i := .nudge c) (fun _ => rfl) ht hl rfl hread rfl
      have hrun := exec_owned hrun he ho
      refine ⟨fun hnot => refused_of hrun ?_, fun ⟨due, hdue⟩ => ?_⟩
      · cases hstate : a.state with
        | armed due => exact absurd hstate (hnot due)
        | _ => rfl
      simp only [hdue] at hrun
      obtain ⟨rfl, rfl⟩ := hd due hdue
      refine ⟨fun hbad => refused_of hrun ?_, fun hlow hhigh => ⟨?_, ?_⟩⟩
      · by_cases habove : 2147483647 < difference due s.time.count + w.toInt
        · exact if_pos habove
        · exact (if_neg habove).trans (if_pos (hbad.resolve_left habove))
      · exact difference_add (.inl rfl) (by omega) (by omega)
      · rw [hrun]
        exact congrArg (fun x => Host.Outcome.next (Answer.finish 0x1B c x))
          ((if_neg (Int.not_lt.2 hhigh)).trans (if_neg (Int.not_lt.2 hlow)))
  obtain ⟨hstate, harmed⟩ := hkey
  refine ⟨hstate, fun hdue => ?_⟩
  obtain ⟨hrange, harm⟩ := harmed hdue
  refine ⟨hrange, fun hd hhigh => ?_, fun hlow hd => ?_⟩
  · obtain ⟨hdiff, harm⟩ := harm (by omega) hhigh
    exact ok_of harm (armWithLate_ahead (s := during s c) (hdiff ▸ hd))
  · obtain ⟨hdiff, harm⟩ := harm hlow (by omega)
    have hd : difference target s.time.count < 0 := hdiff ▸ hd
    exact ⟨fun hlate => ok_of harm (armWithLate_fire (s := during s c) hlate),
      fun hlate hp => ok_of harm (armWithLate_skip (s := during s c) hd hlate hp),
      fun hlate hp => refused_of harm (armWithLate_skipped (s := during s c) hd hlate hp),
      fun hlate => refused_of harm (armWithLate_refuse (s := during s c) hd hlate)⟩

end Sys2Proof.Proofs
end

section
/-!
PROOFS. The firing (R28 to R37): what its four stages leave of the entry, of its chain target, of the lists and of the
notices.
-/
namespace Sys2Proof.Machine

/-! ### Entries in and out of their lists -/

section
variable {s : State} {e x : EntryId} {a : Entry}

theorem State.mem_move_of_armed {due : Word} (ha : a.state = .armed due) : e ∈ (s.move e a).dueList := by
  rw [State.move_dueList, ha]
  exact (mem_insertBy _ _ _ _ _).2 (.inl rfl)

theorem State.move_dueList_of_not_armed (ha : ∀ due, a.state ≠ .armed due) :
    (s.move e a).dueList = s.dueList.filter (· ≠ e) := by
  rw [State.move_dueList]
  cases hstate : a.state with
  | armed due => exact absurd hstate (ha due)
  | _ => rfl

theorem State.not_mem_move (ha : ∀ due, a.state ≠ .armed due) : e ∉ (s.move e a).dueList := by
  rw [State.move_dueList_of_not_armed ha]
  simp

theorem State.mem_move_ne (hx : x ≠ e) : x ∈ (s.move e a).dueList ↔ x ∈ s.dueList := by
  have hfilter : x ∈ s.dueList.filter (· ≠ e) ↔ x ∈ s.dueList := by simp [hx]
  rw [State.move_dueList]
  cases a.state with
  | armed due => exact (mem_insertBy _ _ _ _ _).trans ((or_iff_right hx).trans hfilter)
  | _ => exact hfilter

theorem State.park_move (s : State) (e : EntryId) (a : Entry) (k : Fin 8) :
    ((s.move e a).triggers.get k).park = (s.triggers.get k).park.filter (· ≠ e) ++
      if a.state = .parked ∧ a.trigger = some k then [e] else [] := by
  rw [State.move_triggers]

theorem State.not_mem_park_move (ha : a.state ≠ .parked) (k : Fin 8) : e ∉ ((s.move e a).triggers.get k).park := by
  rw [State.park_move, if_neg fun h => ha h.1]
  simp

theorem State.move_triggers_park (s : State) (e : EntryId) (a : Entry) (k : Fin 8) :
    (s.move e a).triggers.get k = { s.triggers.get k with park := ((s.move e a).triggers.get k).park } := by
  rw [State.move_triggers]

theorem State.armedPast_move_ne (hx : x ≠ e) : (s.move e a).armedPast.get x = s.armedPast.get x := by
  rw [State.move_armedPast]
  split
  · exact get_set_ne _ _ _ _ hx
  · rfl

theorem State.armedPast_move_of_armed {due : Word} (ha : a.state = .armed due) :
    (s.move e a).armedPast.get e = ticksPast due s.time.count := by
  rw [State.move_armedPast, ha]
  exact get_set_self _ _ _

theorem State.armedPast_move_of_not_armed (ha : ∀ due, a.state ≠ .armed due) :
    (s.move e a).armedPast = s.armedPast := by
  rw [State.move_armedPast]
  split
  · next due hdue => exact absurd hdue (ha due)
  · rfl

end

/-! ### Stage 3 (R31 to R35) -/

theorem Entry.complete_eq (a : Entry) :
    a.complete = { a with state := if a.repark && a.trigger.isSome then .parked else .idle } := by
  unfold Entry.complete
  split <;> rfl

theorem Entry.complete_not_armed (a : Entry) (due : Word) : a.complete.state ≠ .armed due := by
  rw [Entry.complete_eq]
  dsimp only
  split <;> nofun

/-- The period a firing leaves its entry (R31). -/
def Entry.firedPeriod (a : Entry) : Word := a.staged.period.getD a.period

theorem Entry.consumeStaged_period (a : Entry) : a.consumeStaged.period = a.firedPeriod := rfl

/-- Whether stage 3 completes the entry, with no step refused (R32, R33). -/
def Entry.Completes (a : Entry) : Prop := a.firedPeriod = 0 ∨ (a.reps ≠ 0 ∧ a.left = 1)

/-- The record that stage 3 re-arms (R31, R32). -/
def Entry.counted (a : Entry) : Entry := { a.consumeStaged with left := if a.reps = 0 then a.left else a.left - 1 }

section
variable {s : State} {a : Entry} {due : Word}

/-- A step of a firing is refused where its group's limits refuse it (R64). -/
theorem deliver_refused_iff (s : State) (a : Entry) : (s.lines.deliver a.action).1 = true ↔ stepRefused s a := by
  have hstep : ∀ g forward, (s.lines.stepGroup g forward).1 = true ↔
      withinLimits (s.lines.groups.get g).limits (((s.lines.groups.get g).stepped forward).position) = false := by
    intro g forward
    unfold LineUnit.stepGroup
    split
    · next h => simp [h]
    · next h => simpa using h
  unfold stepRefused
  cases a.action with
  | stepFwd g =>
    refine ⟨fun h => ⟨g, .inl ⟨rfl, (hstep g true).1 h⟩⟩, ?_⟩
    rintro ⟨_, ⟨⟨⟩, h⟩ | ⟨⟨⟩, _⟩⟩
    exact (hstep g true).2 h
  | stepRev g =>
    refine ⟨fun h => ⟨g, .inr ⟨rfl, (hstep g false).1 h⟩⟩, ?_⟩
    rintro ⟨_, ⟨⟨⟩, _⟩ | ⟨⟨⟩, h⟩⟩
    exact (hstep g false).2 h
  | _ => simp [LineUnit.deliver]

theorem left_sub_one (left : BitVec 16) : left - 1 = 0 ↔ left = 1 := by
  constructor <;> intro h <;> bv_omega

/-- A firing with no step refused completes a one-shot entry and the last firing of a periodic one (R32, R33). -/
theorem State.firedStage3_completes (hstep : ¬ stepRefused s a) (h : a.Completes) :
    s.firedStage3 a due =
      { record := { a.consumeStaged with left := if a.firedPeriod = 0 then a.left else 0 }.complete
        flags := { ended := decide (a.reps ≠ 0) }, forced := false } := by
  have hlimit : (s.lines.deliver a.action).1 = false := Bool.eq_false_iff.2 fun hl => hstep ((deliver_refused_iff s a).1 hl)
  rw [State.firedStage3, hlimit, Entry.stage3, if_neg Bool.false_ne_true, Entry.consumeStaged_period]
  by_cases hp : a.firedPeriod = 0
  · rw [if_pos hp, if_pos hp]
    rfl
  · obtain ⟨hreps, hleft⟩ := h.resolve_left hp
    have hlast : a.left - 1 = 0 := (left_sub_one _).2 hleft
    rw [if_neg hp, if_neg hp, Entry.periodic, if_neg (show ¬ a.consumeStaged.reps = 0 from hreps),
      if_pos (show a.consumeStaged.left - 1 = 0 from hlast), decide_eq_true hreps]
    show Stage3.mk { a.consumeStaged with left := a.left - 1 }.complete _ _ = _
    rw [hlast]

/-- A firing with no step refused re-arms a periodic entry with firings to come (R32). -/
theorem State.firedStage3_rearms (hstep : ¬ stepRefused s a) (h : ¬ a.Completes) :
    s.firedStage3 a due = a.counted.rearm due s.time.count := by
  have hlimit : (s.lines.deliver a.action).1 = false := Bool.eq_false_iff.2 fun hl => hstep ((deliver_refused_iff s a).1 hl)
  obtain ⟨hp, hleft⟩ := not_or.1 h
  rw [State.firedStage3, hlimit, Entry.stage3, if_neg Bool.false_ne_true, Entry.consumeStaged_period, if_neg hp, Entry.periodic]
  by_cases hreps : a.reps = 0
  · rw [if_pos (show a.consumeStaged.reps = 0 from hreps), Entry.counted, if_pos hreps]
    rfl
  · have hmore : ¬ a.left - 1 = 0 := fun h => hleft ⟨hreps, (left_sub_one _).1 h⟩
    rw [if_neg (show ¬ a.consumeStaged.reps = 0 from hreps), if_neg (show ¬ a.consumeStaged.left - 1 = 0 from hmore),
      Entry.counted, if_neg hreps]
    rfl

theorem Entry.rearm_ahead {now : Word} (h : 0 ≤ difference (due + a.period) now) :
    a.rearm due now = { record := { a with state := .armed (due + a.period) }, flags := {}, forced := false } := if_pos h

theorem Entry.rearm_grid {now : Word} (h : difference (due + a.period) now < 0) (hlate : a.late ≠ .refuse) :
    a.rearm due now =
      { record := { a with state := .armed (Machine.firstGridPoint due now a.period) }, flags := { skipped := true }
        forced := false } := by
  rw [Entry.rearm, if_neg (Int.not_le.2 h)]
  cases hl : a.late with
  | refuse => exact absurd hl hlate
  | _ => rfl

theorem Entry.rearm_stopped {now : Word} (h : difference (due + a.period) now < 0) (hlate : a.late = .refuse) :
    a.rearm due now = { record := { a with state := .idle }, flags := { stopped := true }, forced := true } := by
  rw [Entry.rearm, if_neg (Int.not_le.2 h), hlate]

/-- The entry that stage 3 stops: a refused step, or a late re-arm under REFUSE (R31, R35). -/
def State.StopsFired (s : State) (a : Entry) (due : Word) : Prop :=
  stepRefused s a ∨
    (¬ a.Completes ∧ a.late = .refuse ∧ difference (due + a.firedPeriod) s.time.count < 0)

/-- Stage 3 forces the notice of an entry it stops, and of no other (R30). -/
theorem State.forced_iff : (s.firedStage3 a due).forced = true ↔ s.StopsFired a due := by
  by_cases hstep : stepRefused s a
  · rw [State.firedStage3_limit ((deliver_refused_iff s a).2 hstep)]
    exact iff_of_true rfl (.inl hstep)
  by_cases hcompletes : a.Completes
  · rw [State.firedStage3_completes hstep hcompletes]
    exact iff_of_false Bool.false_ne_true fun h => h.elim hstep fun ⟨hnot, _⟩ => hnot hcompletes
  rw [State.firedStage3_rearms hstep hcompletes]
  by_cases hahead : 0 ≤ difference (due + a.firedPeriod) s.time.count
  · rw [Entry.rearm_ahead (a := a.counted) hahead]
    refine iff_of_false Bool.false_ne_true fun h => h.elim hstep fun ⟨_, _, hpast⟩ => ?_
    exact absurd hahead (Int.not_le.2 hpast)
  have hpast := Int.not_le.1 hahead
  by_cases hlate : a.late = .refuse
  · rw [Entry.rearm_stopped (a := a.counted) hpast hlate]
    exact iff_of_true rfl (.inr ⟨hcompletes, hlate, hpast⟩)
  · rw [Entry.rearm_grid (a := a.counted) hpast hlate]
    exact iff_of_false Bool.false_ne_true fun h => h.elim hstep fun ⟨_, hrefuse, _⟩ => hlate hrefuse

end

/-! ### Stage 4 (R36, R37) -/

section
variable {s : State} {x : EntryId} {b : Entry} {fired : Word}

theorem State.stage4_none (s : State) (fired : Word) : s.stage4 none fired = ({}, s) := rfl

theorem State.stage4_busy (hx : s.entry x = some b) (hb : ∃ w, b.state = .armed w ∨ b.state = .held w) :
    s.stage4 (some x) fired = ({ chainBusy := true }, s) := by
  obtain ⟨w, hb | hb⟩ := hb <;> simp only [State.stage4, hx, hb]

theorem State.stage4_try (hx : s.entry x = some b) (hb : b.state = .idle ∨ b.state = .parked) :
    s.stage4 (some x) fired = s.chainTry x b fired := by
  obtain hb | hb := hb <;> simp only [State.stage4, hx, hb]

theorem State.chainTry_armed (h : ¬ difference (fired + b.delay) s.time.count < 0 ∨ b.late = .fire) :
    s.chainTry x b fired = ({}, s.move x (b.chainArmed (fired + b.delay))) := by
  have hdue : b.chainDue (fired + b.delay) s.time.count = (some (fired + b.delay), {}) := by
    unfold Entry.chainDue
    obtain h | h := h
    · exact if_pos (Int.not_lt.1 h)
    · simp only [h, ite_self]
  simp only [State.chainTry, hdue]

theorem State.chainTry_grid (h : difference (fired + b.delay) s.time.count < 0) (hlate : b.late = .skip)
    (hp : b.period ≠ 0) :
    s.chainTry x b fired =
      ({}, s.move x (b.chainArmed (Machine.firstGridPoint (fired + b.delay) s.time.count b.period))) := by
  simp only [State.chainTry, Entry.chainDue, hlate, if_neg (Int.not_le.2 h), if_neg hp]

theorem State.chainTry_skipped (h : difference (fired + b.delay) s.time.count < 0) (hlate : b.late = .skip)
    (hp : b.period = 0) : s.chainTry x b fired = ({ skipped := true }, s) := by
  simp only [State.chainTry, Entry.chainDue, hlate, if_neg (Int.not_le.2 h), if_pos hp]

theorem State.chainTry_stopped (h : difference (fired + b.delay) s.time.count < 0) (hlate : b.late = .refuse) :
    s.chainTry x b fired = ({ stopped := true }, s) := by
  simp only [State.chainTry, Entry.chainDue, hlate, if_neg (Int.not_le.2 h)]

/-- The flags that an attempt can raise: SKIPPED and STOPPED. -/
theorem State.chainTry_flags (s : State) (x : EntryId) (b : Entry) (fired : Word) :
    (s.chainTry x b fired).1.late = false ∧ (s.chainTry x b fired).1.ended = false := by
  by_cases h : difference (fired + b.delay) s.time.count < 0
  · cases hlate : b.late with
    | fire =>
      rw [State.chainTry_armed (.inr hlate)]
      exact ⟨rfl, rfl⟩
    | skip =>
      by_cases hp : b.period = 0
      · rw [State.chainTry_skipped h hlate hp]
        exact ⟨rfl, rfl⟩
      · rw [State.chainTry_grid h hlate hp]
        exact ⟨rfl, rfl⟩
    | refuse =>
      rw [State.chainTry_stopped h hlate]
      exact ⟨rfl, rfl⟩
  · rw [State.chainTry_armed (.inl h)]
    exact ⟨rfl, rfl⟩

/-- Stage 4 raises neither LATE nor ENDED. -/
theorem State.stage4_flags (s : State) (chain : Option EntryId) (fired : Word) :
    (s.stage4 chain fired).1.late = false ∧ (s.stage4 chain fired).1.ended = false := by
  cases chain with
  | none => exact ⟨rfl, rfl⟩
  | some x =>
    cases hx : s.entry x with
    | none => simp [State.stage4, hx]
    | some b =>
      cases hb : b.state with
      | idle => rw [State.stage4_try hx (.inl hb)]; exact State.chainTry_flags s x b fired
      | parked => rw [State.stage4_try hx (.inr hb)]; exact State.chainTry_flags s x b fired
      | armed w => rw [State.stage4_busy hx ⟨w, .inl hb⟩]; exact ⟨rfl, rfl⟩
      | held w => rw [State.stage4_busy hx ⟨w, .inr hb⟩]; exact ⟨rfl, rfl⟩

/-- Stage 4 touches no list position of an entry that is not the chain target. -/
theorem State.stage4_lists (s : State) {chain : Option EntryId} {e : EntryId} (h : chain ≠ some e) (fired : Word) :
    (e ∈ (s.stage4 chain fired).2.dueList ↔ e ∈ s.dueList) ∧
      ∀ k, (s.triggers.get k).park.getLast? = some e → ((s.stage4 chain fired).2.triggers.get k).park.getLast? = some e := by
  obtain ⟨flags, h4⟩ | ⟨y, b, due, flags, rfl, -, -, -, h4⟩ := s.stage4_cases chain fired
  · rw [h4]
    exact ⟨.rfl, fun _ hk => hk⟩
  · have hey : e ≠ y := fun hey => h (by rw [hey])
    rw [h4]
    refine ⟨State.mem_move_ne hey, fun k hk => ?_⟩
    obtain ⟨before, hpark⟩ := List.getLast?_eq_some_iff.1 hk
    have hstate : ¬ ((b.chainArmed due).state = .parked ∧ (b.chainArmed due).trigger = some k) := nofun
    rw [State.park_move, hpark, if_neg hstate, List.append_nil, List.filter_append, List.filter_cons_of_pos (by simpa using hey)]
    simp

/-- Stage 4 changes only the park list of a trigger. -/
theorem State.stage4_triggers (s : State) (chain : Option EntryId) (fired : Word) (k : Fin 8) :
    (s.stage4 chain fired).2.triggers.get k =
      { s.triggers.get k with park := ((s.stage4 chain fired).2.triggers.get k).park } := by
  obtain ⟨flags, h4⟩ | ⟨y, b, due, flags, -, -, -, -, h4⟩ := s.stage4_cases chain fired
  · rw [h4]
  · rw [h4]
    exact State.move_triggers_park _ _ _ _

end

/-! ### The firing, stage by stage -/

section
variable {s : State} {e : EntryId} {a : Entry} {due : Word}

/-- Stages 1 to 3 are the action and a change from list to list (R31). -/
theorem State.afterStage3_eq (s : State) (e : EntryId) (a : Entry) (due : Word) :
    s.afterStage3 e a due =
      State.move { s with lines := (s.lines.deliver a.action).2 } e (s.firedStage3 a due).record := rfl

theorem State.afterStage3_time (s : State) (e : EntryId) (a : Entry) (due : Word) :
    (s.afterStage3 e a due).time = s.time := by
  rw [State.afterStage3_eq, State.move_frame]

theorem State.entry_afterStage3 (s : State) (e : EntryId) (a : Entry) (due : Word) (x : EntryId) :
    (s.afterStage3 e a due).entry x = if x = e then some (s.firedStage3 a due).record else s.entry x := by
  rw [State.afterStage3_eq, State.move_entry]
  rfl

theorem State.entry_fireEntry (s : State) (e : EntryId) (a : Entry) (due : Word) (x : EntryId) :
    (s.fireEntry e a due).entry x = (s.afterStage4 e a due).2.entry x := by
  rw [State.fireEntry_eq]
  split <;> simp

@[simp] theorem State.fireEntry_dueList (s : State) (e : EntryId) (a : Entry) (due : Word) :
    (s.fireEntry e a due).dueList = (s.afterStage4 e a due).2.dueList := by
  rw [State.fireEntry_eq]
  split <;> simp

@[simp] theorem State.fireEntry_armedPast (s : State) (e : EntryId) (a : Entry) (due : Word) :
    (s.fireEntry e a due).armedPast = (s.afterStage4 e a due).2.armedPast := by
  rw [State.fireEntry_eq]
  split <;> simp

@[simp] theorem State.fireEntry_triggers (s : State) (e : EntryId) (a : Entry) (due : Word) :
    (s.fireEntry e a due).triggers = (s.afterStage4 e a due).2.triggers := by
  rw [State.fireEntry_eq]
  split <;> simp

/-- The entry and its chain target alone change (R31, R36). -/
theorem State.entry_fireEntry_ne {x : EntryId} (hx : x ≠ e) (hchain : a.chain ≠ some x) :
    (s.fireEntry e a due).entry x = s.entry x := by
  rw [State.entry_fireEntry, State.afterStage4, State.entry_stage4 _ (by rwa [State.firedStage3_chain]),
    State.entry_afterStage3, if_neg hx]

theorem State.afterStage4_of_no_chain (h : a.chain = none) :
    s.afterStage4 e a due = ({}, s.afterStage3 e a due) := by
  rw [State.afterStage4, State.firedStage3_chain, h, State.stage4_none]

/-! ### The flags of the notice (R30) -/

theorem State.firingFlags_skipped (s : State) (e : EntryId) (a : Entry) (due : Word) :
    (s.firingFlags e a due).skipped = ((s.firedStage3 a due).flags.skipped || (s.afterStage4 e a due).1.skipped) := by
  simp [State.firingFlags, EntryFlags.union]

theorem State.firingFlags_stopped (s : State) (e : EntryId) (a : Entry) (due : Word) :
    (s.firingFlags e a due).stopped = ((s.firedStage3 a due).flags.stopped || (s.afterStage4 e a due).1.stopped) := by
  simp [State.firingFlags, EntryFlags.union]

theorem State.firingFlags_chainBusy (s : State) (e : EntryId) (a : Entry) (due : Word) :
    (s.firingFlags e a due).chainBusy =
      ((s.firedStage3 a due).flags.chainBusy || (s.afterStage4 e a due).1.chainBusy) := by
  simp [State.firingFlags, EntryFlags.union]

theorem State.firingFlags_ended (s : State) (e : EntryId) (a : Entry) (due : Word) :
    (s.firingFlags e a due).ended = (s.firedStage3 a due).flags.ended := by
  obtain ⟨-, hended⟩ := (s.afterStage3 e a due).stage4_flags (s.firedStage3 a due).record.chain due
  have hended : (s.afterStage4 e a due).1.ended = false := hended
  simp [State.firingFlags, EntryFlags.union, hended]

/-- Stage 3 does not raise LATE. -/
theorem State.firedStage3_late (s : State) (a : Entry) (due : Word) : (s.firedStage3 a due).flags.late = false := by
  by_cases hstep : stepRefused s a
  · rw [State.firedStage3_limit ((deliver_refused_iff s a).2 hstep)]
  by_cases hcompletes : a.Completes
  · rw [State.firedStage3_completes hstep hcompletes]
  rw [State.firedStage3_rearms hstep hcompletes]
  unfold Entry.rearm
  repeat' split
  all_goals rfl

/-- LATE is among the flags exactly when the due fired was past (R30). -/
theorem State.firingFlags_late (s : State) (e : EntryId) (a : Entry) (due : Word) :
    (s.firingFlags e a due).late = decide (difference due s.time.count < 0) := by
  obtain ⟨hlate, -⟩ := (s.afterStage3 e a due).stage4_flags (s.firedStage3 a due).record.chain due
  have hlate : (s.afterStage4 e a due).1.late = false := hlate
  simp [State.firingFlags, EntryFlags.union, hlate, State.firedStage3_late]

theorem union_skipped (f g : EntryFlags) : (f.union g).skipped = (f.skipped || g.skipped) := rfl
theorem union_stopped (f g : EntryFlags) : (f.union g).stopped = (f.stopped || g.stopped) := rfl
theorem union_ended (f g : EntryFlags) : (f.union g).ended = (f.ended || g.ended) := rfl
theorem union_chainBusy (f g : EntryFlags) : (f.union g).chainBusy = (f.chainBusy || g.chainBusy) := rfl

/-- The notice that a firing with notify on leaves (R30, R92). -/
theorem State.report_of_notify (hn : a.notify = true) :
    ∃ r, entryReport e ((s.fireEntry e a due).settleLink.notices.queues.get a.owner) = some r ∧
      r.flags = (s.reportedFlags a.owner e).union (s.firingFlags e a due) := by
  obtain ⟨r, hr, hflags, -⟩ := s.entryReport_fireEntry e (a := a) (due := due) (by rw [hn, Bool.true_or])
  exact ⟨r, by rwa [State.settleLink_queues], hflags⟩

theorem State.report_of_forced (hf : (s.firedStage3 a due).forced = true) :
    ∃ r, entryReport e ((s.fireEntry e a due).settleLink.notices.queues.get a.owner) = some r ∧
      r.flags = (s.reportedFlags a.owner e).union (s.firingFlags e a due) := by
  obtain ⟨r, hr, hflags, -⟩ := s.entryReport_fireEntry e (a := a) (due := due) (by rw [hf, Bool.or_true])
  exact ⟨r, by rwa [State.settleLink_queues], hflags⟩

end

end Sys2Proof.Machine
end

section
/-!
PROOFS. The obligations of the firing (R28 to R37).
-/
namespace Sys2Proof.Machine

/-! ### What a firing leaves unchanged -/

/-- An action leaves the drives, and of a group everything but index and position (R63, R64, R65). -/
theorem LineUnit.deliver_groups (u : LineUnit) (x : Action) :
    (u.deliver x).2.drives = u.drives ∧
      ∀ g, (u.deliver x).2.groups.get g =
        { u.groups.get g with index := ((u.deliver x).2.groups.get g).index
                              position := ((u.deliver x).2.groups.get g).position } := by
  have hput : ∀ g index position, ∀ j,
      let v := u.putGroup g { u.groups.get g with index := index, position := position }
      v.groups.get j = { u.groups.get j with index := (v.groups.get j).index, position := (v.groups.get j).position } := by
    intro g index position j v
    have hj : v.groups.get j = _ := LineUnit.putGroup_groups _ _ _ _
    rw [hj]
    split
    · next h => rw [h]
    · rfl
  have hstep : ∀ g forward, (u.stepGroup g forward).2.drives = u.drives ∧
      ∀ j, (u.stepGroup g forward).2.groups.get j =
        { u.groups.get j with index := ((u.stepGroup g forward).2.groups.get j).index
                              position := ((u.stepGroup g forward).2.groups.get j).position } := by
    intro g forward
    unfold LineUnit.stepGroup
    split
    · rw [Group.stepped_eq]
      exact ⟨rfl, hput g _ _⟩
    · exact ⟨rfl, fun _ => rfl⟩
  cases x with
  | stepFwd g => exact hstep g true
  | stepRev g => exact hstep g false
  | loadPhase g index => exact ⟨rfl, hput g index _⟩
  | _ => exact ⟨rfl, fun _ => rfl⟩

section
variable {s : State} {e x : EntryId} {a : Entry} {due : Word}

theorem State.dueOf_afterStage3_ne (hx : x ≠ e) : (s.afterStage3 e a due).dueOf x = s.dueOf x :=
  State.dueOf_congr (by rw [State.entry_afterStage3, if_neg hx])

/-- What stage 3 arms has its record of how far its due was past (R27). -/
theorem State.armedPast_afterStage3 {d : Word} (h : (s.firedStage3 a due).record.state = .armed d) :
    (s.afterStage3 e a due).armedPast.get e = ticksPast d s.time.count :=
  State.armedPast_move_of_armed (s := { s with lines := (s.lines.deliver a.action).2 }) h

theorem State.armedPast_afterStage3_eq (h : x ≠ e ∨ ∀ d, (s.firedStage3 a due).record.state ≠ .armed d) :
    (s.afterStage3 e a due).armedPast.get x = s.armedPast.get x := by
  obtain h | h := h
  · exact State.armedPast_move_ne (s := { s with lines := (s.lines.deliver a.action).2 }) h
  · rw [State.afterStage3_eq, State.armedPast_move_of_not_armed h]

theorem State.dueOf_move_self (s : State) (x : EntryId) (b : Entry) (d : Word) :
    (s.move x (b.chainArmed d)).dueOf x = some d :=
  State.dueOf_of_armed (by rw [State.move_entry, if_pos rfl]) rfl

theorem State.dueOf_move_ne (s : State) {x y : EntryId} (hx : x ≠ y) (b : Entry) : (s.move y b).dueOf x = s.dueOf x :=
  State.dueOf_congr (by rw [State.move_entry, if_neg hx])

/-- Every entry that a firing arms has its record of how far its due was past (R27). -/
theorem State.armedPast_of_fired {d : Word} (hx : x = e ∨ s.dueOf x = none) (hd : (s.fireEntry e a due).dueOf x = some d) :
    (s.fireEntry e a due).armedPast.get x = ticksPast d s.time.count := by
  have h3 : (s.afterStage3 e a due).dueOf x = some d → (s.afterStage3 e a due).armedPast.get x = ticksPast d s.time.count := by
    intro hd
    by_cases hxe : x = e
    · subst hxe
      obtain ⟨b, hb, hstate⟩ := (State.dueOf_eq_some _ _ _).1 hd
      rw [State.entry_afterStage3, if_pos rfl] at hb
      cases hb
      exact State.armedPast_afterStage3 hstate
    · rw [State.dueOf_afterStage3_ne hxe, hx.resolve_left hxe] at hd
      cases hd
  rw [State.dueOf_congr (State.entry_fireEntry s e a due x)] at hd
  rw [State.fireEntry_armedPast]
  revert hd
  unfold State.afterStage4
  obtain ⟨flags, h4⟩ | ⟨y, b, due', flags, -, -, -, -, h4⟩ :=
    (s.afterStage3 e a due).stage4_cases (s.firedStage3 a due).record.chain due
  · rw [h4]
    exact h3
  · rw [h4]
    intro hd
    by_cases hxy : x = y
    · subst hxy
      have harmed : ((s.afterStage3 e a due).move x (b.chainArmed due')).dueOf x = some due' :=
        State.dueOf_of_armed (by rw [State.move_entry, if_pos rfl]) rfl
      obtain rfl := Option.some.inj (harmed.symm.trans hd)
      rw [← State.afterStage3_time s e a due]
      exact State.armedPast_move_of_armed rfl
    · rw [State.dueOf_move_ne _ hxy] at hd
      rw [State.armedPast_move_ne hxy]
      exact h3 hd

theorem State.firedStage3_not_armed (h : (s.afterStage3 e a due).dueOf e = none) (d : Word) :
    (s.firedStage3 a due).record.state ≠ .armed d := by
  intro hstate
  have hrecord : (s.afterStage3 e a due).entry e = some (s.firedStage3 a due).record := by
    rw [State.entry_afterStage3, if_pos rfl]
  rw [State.dueOf_of_armed hrecord hstate] at h
  cases h

/-- The records of the entries that a firing does not arm are kept. -/
theorem State.armedPast_of_not_fired (hx : x ≠ e ∧ s.dueOf x ≠ none ∨ (s.fireEntry e a due).dueOf x = none) :
    (s.fireEntry e a due).armedPast.get x = s.armedPast.get x := by
  rw [State.dueOf_congr (State.entry_fireEntry s e a due x)] at hx
  have h3 : x ≠ e ∨ (s.afterStage3 e a due).dueOf x = none →
      (s.afterStage3 e a due).armedPast.get x = s.armedPast.get x := by
    intro h
    refine State.armedPast_afterStage3_eq ((Classical.em (x = e)).symm.imp_right fun hxe => ?_)
    subst hxe
    exact State.firedStage3_not_armed (h.resolve_left fun hne => hne rfl)
  rw [State.fireEntry_armedPast]
  revert hx
  unfold State.afterStage4
  obtain ⟨flags, h4⟩ | ⟨y, b, due', flags, -, hy, hb, -, h4⟩ :=
    (s.afterStage3 e a due).stage4_cases (s.firedStage3 a due).record.chain due
  · rw [h4]
    exact fun hx => h3 (hx.imp_left And.left)
  · rw [h4]
    intro hx
    by_cases hxy : x = y
    · subst hxy
      have hnone := hx.resolve_right (by rw [State.dueOf_move_self]; nofun)
      obtain ⟨hxe, hdue⟩ := hnone
      rw [State.entry_afterStage3, if_neg hxe] at hy
      refine absurd (State.dueOf_of_not_armed hy fun d hstate => ?_) hdue
      obtain hb | hb := hb <;> rw [hb] at hstate <;> cases hstate
    · rw [State.dueOf_move_ne _ hxy] at hx
      exact (State.armedPast_move_ne hxy).trans (h3 (hx.imp_left And.left))

/-- A firing changes only the park list of a trigger. -/
theorem State.fireEntry_trigger (s : State) (e : EntryId) (a : Entry) (due : Word) (k : Fin 8) :
    (s.fireEntry e a due).triggers.get k =
      { s.triggers.get k with park := ((s.fireEntry e a due).triggers.get k).park } := by
  rw [State.fireEntry_triggers, State.afterStage4, State.stage4_triggers, State.afterStage3_eq, State.move_triggers]

/-- A firing changes the record of its entry as stages 3 and 4 do (R31, R36). -/
theorem State.entry_fireEntry_record (s : State) (e : EntryId) (a : Entry) (due : Word) :
    ∃ b : Entry, (s.fireEntry e a due).entry e = some
      { a with
        state := b.state, left := b.left, period := a.staged.period.getD a.period
        action := a.staged.action.getD a.action, staged := { period := none, action := none } } := by
  obtain ⟨state, left, hrecord⟩ := a.stage3_record (s.lines.deliver a.action).1 due s.time.count
  have h3 : (s.afterStage3 e a due).entry e = some (s.firedStage3 a due).record := by
    rw [State.entry_afterStage3, if_pos rfl]
  have hrecord : (s.firedStage3 a due).record = _ := hrecord
  rw [State.entry_fireEntry, State.afterStage4]
  obtain ⟨flags, h4⟩ | ⟨y, b, due', flags, -, hy, -, -, h4⟩ :=
    (s.afterStage3 e a due).stage4_cases (s.firedStage3 a due).record.chain due
  · rw [h4]
    exact ⟨{ a with state := state, left := left }, h3.trans (by rw [hrecord]; rfl)⟩
  · rw [h4, State.move_entry]
    split
    · next hye =>
      rw [← hye, h3] at hy
      cases hy
      exact ⟨(s.firedStage3 a due).record.chainArmed due', by rw [hrecord]; rfl⟩
    · exact ⟨{ a with state := state, left := left }, h3.trans (by rw [hrecord]; rfl)⟩

/-- A firing changes one queue and the marker request of the notice unit (R30). -/
theorem State.fireEntry_notices (s : State) (e : EntryId) (a : Entry) (due : Word) :
    (s.fireEntry e a due).notices =
      if a.notify || (s.firedStage3 a due).forced then
        s.notices.setQueue a.owner
          (postEntry (s.notices.queues.get a.owner) e a.tag (s.firingFlags e a due) due)
      else s.notices := by
  rw [State.fireEntry_eq]
  split
  · rw [State.post_notices, State.afterStage4_notices]
  · rw [State.afterStage4_notices]

theorem NoticeUnit.setQueue_frame (n : NoticeUnit) (p : Port) (q : List NoticeItem) :
    n.setQueue p q = { n with queues := (n.setQueue p q).queues, marker := (n.setQueue p q).marker } := by
  cases p <;> rfl

/-- Without a due head, FIRE changes nothing (R28). -/
theorem exec_fire_none (h : ∀ e a due, ¬ Fires s e a due) : exec .fire s = .next s := by
  have hnone : s.dueHead = none := read_none fun ⟨e, a, due⟩ hhead => h e a due (State.fires_of_dueHead hhead)
  have hexec : exec .fire s = execFire s := rfl
  rw [hexec, execFire, hnone]

end

/-! ### The posting of a firing (R92) -/

theorem any_reports_eq_false {e : EntryId} {q : List NoticeItem} (h : ∀ i ∈ q, i.reports e = false) :
    q.any (NoticeItem.reports e) = false := List.any_eq_false.2 fun i hi => by simp [h i hi]

theorem NoticeItem.again_of_not_reports {e : EntryId} {i : NoticeItem} (h : i.reports e = false) (tag : BitVec 16)
    (flags : EntryFlags) (due : Word) : NoticeItem.again e tag flags due i = i := by
  cases i with
  | entry e' r => exact if_neg (by simpa [NoticeItem.reports] using h)
  | timebase n f => rfl

theorem map_again_of_not_reports {e : EntryId} {q : List NoticeItem} (h : ∀ i ∈ q, i.reports e = false) (tag : BitVec 16)
    (flags : EntryFlags) (due : Word) : q.map (NoticeItem.again e tag flags due) = q := by
  refine (List.map_congr_left fun i hi => ?_).trans (List.map_id q)
  exact NoticeItem.again_of_not_reports (h i hi) tag flags due

theorem saturate16_eq (n : BitVec 16) : saturate16 n = if n = 0xFFFF then 0xFFFF else n + 1 := by
  unfold saturate16
  split
  · next h => rw [h]
  · rfl

/-- The item of an entry is updated in its place (R92). -/
theorem postEntry_split {e : EntryId} {before after : List NoticeItem} {r : EntryReport}
    (h : ∀ i ∈ before ++ after, i.reports e = false) (tag : BitVec 16) (flags : EntryFlags) (due : Word) :
    postEntry (before ++ .entry e r :: after) e tag flags due =
      before ++ .entry e (r.again tag flags due) :: after := by
  have hany : (before ++ .entry e r :: after).any (NoticeItem.reports e) = true := by simp [NoticeItem.reports]
  have hbefore := map_again_of_not_reports (fun i hi => h i (List.mem_append_left _ hi)) tag flags due
  have hafter := map_again_of_not_reports (fun i hi => h i (List.mem_append_right _ hi)) tag flags due
  rw [postEntry_of_any hany, List.map_append, List.map_cons, hbefore, hafter, NoticeItem.again, if_pos rfl]

theorem postEntry_ne_nil (q : List NoticeItem) (e : EntryId) (tag : BitVec 16) (flags : EntryFlags) (due : Word) :
    (postEntry q e tag flags due).isEmpty = false := by
  cases h : q.any (NoticeItem.reports e) with
  | false => simp [postEntry_of_not_any h]
  | true =>
    rw [postEntry_of_any h]
    cases q with
    | nil => cases h
    | cons => rfl

theorem NoticeUnit.marker_post (n : NoticeUnit) (p : Port) {q : List NoticeItem} (h : q.isEmpty = false) :
    (n.setQueue p q).marker = (n.marker || decide (p = .link ∧ n.queues.get p = [] ∧ n.signalling.link = true)) := by
  cases p with
  | spi => simp [NoticeUnit.marker_setQueue]
  | link =>
    rw [NoticeUnit.marker_setQueue]
    dsimp only
    rw [if_neg (by rw [h]; exact Bool.false_ne_true)]
    cases hq : n.queues.link <;> simp [PerPort.get, hq]

end Sys2Proof.Machine

namespace Sys2Proof.Proofs
open Sys2Proof.Machine

/-- Settles O25: a firing touches what its four stages touch. -/
theorem fireFrame : Obligations.FireFrame := by
  refine ⟨fun s h => exec_fire_none h, fun s e a due hfires => ⟨s.fireEntry e a due, exec_fire hfires, ?_⟩⟩
  obtain ⟨hlineClaims, htriggerClaims, -⟩ := s.lines.deliver_claims a.action
  obtain ⟨hdrives, hgroups⟩ := s.lines.deliver_groups a.action
  rw [State.fireEntry_lines]
  refine ⟨?_, fun x d => State.armedPast_of_fired, fun x => State.armedPast_of_not_fired, State.fireEntry_trigger s e a due,
    fun hnone => by rw [hnone]; rfl, hdrives, hlineClaims, htriggerClaims, hgroups, State.entry_fireEntry_record s e a due,
    fun x hx hchain => State.entry_fireEntry_ne hx hchain, ?_, ?_⟩
  · exact State.fireEntry_frame s e a due
  · rw [State.fireEntry_notices]
    split
    · exact NoticeUnit.setQueue_frame _ _ _
    · rfl
  · rw [State.fireEntry_notices]
    split
    · exact NoticeUnit.setQueue_get_other _ _ _
    · rfl

/-- Settles O32: the posting updates the item or joins one, and no other firing posts. -/
theorem firePosts : Obligations.FirePosts := by
  intro s e a due hfires
  refine ⟨s.fireEntry e a due, exec_fire hfires, fun hnotify => ?_, fun hnotify hstep hkept => ?_⟩
  · rw [State.fireEntry_notices, hnotify, Bool.true_or, if_pos rfl]
    refine ⟨⟨s.firingFlags e a due, State.firingFlags_late s e a due, fun hnone => ?_, fun before after r hq hothers => ?_⟩, ?_⟩
    · rw [NoticeUnit.setQueue_get, postEntry_of_not_any (any_reports_eq_false hnone)]
    · rw [NoticeUnit.setQueue_get, hq, postEntry_split hothers, EntryReport.again, saturate16_eq]
    · exact NoticeUnit.marker_post _ _ (postEntry_ne_nil _ _ _ _ _)
  · have hforced : (s.firedStage3 a due).forced = false := Bool.eq_false_iff.2 fun h => by
      obtain hrefused | ⟨hmore, hlate, hpast⟩ := State.forced_iff.1 h
      · exact hstep hrefused
      · obtain hk | hk | hk | hk := hkept
        · exact hk hlate
        · exact hmore (.inl hk)
        · exact hmore (.inr hk)
        · exact absurd hpast (Int.not_lt.2 hk)
    rw [State.fireEntry_notices, hnotify, hforced]
    rfl

/-- Settles O29: stage 3 completes the entry, and the chain of another entry leaves its place. -/
theorem fireCompletes : Obligations.FireCompletes := by
  intro s e a due hfires hstep hchain period hcompletes
  have h3 := State.firedStage3_completes (due := due) hstep hcompletes
  have hrecord := congrArg Stage3.record h3
  have hchain' : (s.firedStage3 a due).record.chain ≠ some e := by rwa [State.firedStage3_chain]
  have hnot : ∀ d, (s.firedStage3 a due).record.state ≠ .armed d := by
    rw [hrecord]
    exact Entry.complete_not_armed _
  obtain ⟨hmem, hlast⟩ := (s.afterStage3 e a due).stage4_lists hchain' due
  refine ⟨_, (s.firedStage3 a due).record, exec_fire hfires, ?_, ?_, ?_, fun hnone => ?_, fun hrepark => ?_,
    fun k hrepark htrigger => ?_, fun hnotify => ?_⟩
  · rw [State.entry_settleLink, State.entry_fireEntry_self s hchain]
  · rw [hrecord, Entry.complete_eq]
    rfl
  · rw [State.settleLink_dueList, State.fireEntry_dueList]
    exact fun h => State.not_mem_move (s := { s with lines := (s.lines.deliver a.action).2 }) hnot (hmem.1 h)
  · rw [State.settleLink_dueList, State.fireEntry_dueList, State.afterStage4_of_no_chain hnone]
    exact State.move_dueList_of_not_armed (s := { s with lines := (s.lines.deliver a.action).2 }) hnot
  · rw [hrecord, Entry.complete_eq]
    exact if_neg (by simp [Entry.consumeStaged, hrepark])
  · have hparked : (s.firedStage3 a due).record.state = .parked := by
      rw [hrecord, Entry.complete_eq]
      exact if_pos (by simp [Entry.consumeStaged, hrepark, htrigger])
    have htrigger : (s.firedStage3 a due).record.trigger = some k := by
      rw [hrecord, Entry.complete_eq]
      exact htrigger
    have hpark : ((s.afterStage3 e a due).triggers.get k).park = (s.triggers.get k).park.filter (· ≠ e) ++ [e] := by
      rw [State.afterStage3_eq, State.park_move, if_pos ⟨hparked, htrigger⟩]
    rw [State.settleLink_triggers, State.fireEntry_triggers]
    refine ⟨hparked, hlast k (by rw [hpark]; simp), fun hnone => ?_⟩
    rw [State.afterStage4_of_no_chain hnone, hpark]
  · obtain ⟨r, hr, hflags⟩ := State.report_of_notify (s := s) (e := e) (due := due) hnotify
    refine ⟨r, hr, ?_⟩
    rw [hflags, union_ended, State.firingFlags_ended, h3]

/-- Settles O30: stage 3 re-arms the entry on time, on the grid, or not at all. -/
theorem fireRearms : Obligations.FireRearms := by
  intro s e a due hfires hstep hchain period next left prior hp hmore
  have hcompletes : ¬ a.Completes := fun h => h.elim hp fun ⟨hreps, hleft⟩ => hmore.elim hreps fun h => h hleft
  have h3 := State.firedStage3_rearms (due := due) hstep hcompletes
  have hchain' : (s.firedStage3 a due).record.chain ≠ some e := by rwa [State.firedStage3_chain]
  obtain ⟨hmem, -⟩ := (s.afterStage3 e a due).stage4_lists hchain' due
  have harmed : ∀ d, (s.firedStage3 a due).record.state = .armed d → e ∈ (s.fireEntry e a due).settleLink.dueList := by
    intro d hd
    rw [State.settleLink_dueList, State.fireEntry_dueList]
    exact hmem.2 (State.mem_move_of_armed (s := { s with lines := (s.lines.deliver a.action).2 }) hd)
  have hended : (s.firedStage3 a due).flags.ended = false ∧ (s.firedStage3 a due).record.left = left := by
    rw [h3]
    unfold Entry.rearm
    repeat' split
    all_goals exact ⟨rfl, rfl⟩
  refine ⟨_, (s.firedStage3 a due).record, exec_fire hfires, ?_, hended.2, fun hahead => ?_, fun hpast hlate => ?_,
    fun hpast hlate => ?_, fun hnotify => ?_⟩
  · rw [State.entry_settleLink, State.entry_fireEntry_self s hchain]
  · have h3 := h3.trans (Entry.rearm_ahead (a := a.counted) hahead)
    have hstate : (s.firedStage3 a due).record.state = .armed next := by rw [h3]; rfl
    refine ⟨hstate, harmed _ hstate, fun hnotify hnone => ?_⟩
    obtain ⟨r, hr, hflags⟩ := State.report_of_notify (s := s) (e := e) (due := due) hnotify
    refine ⟨r, hr, ?_, ?_⟩
    · rw [hflags, union_skipped, State.firingFlags_skipped, h3, State.afterStage4_of_no_chain hnone]
      exact Bool.or_false _
    · rw [hflags, union_stopped, State.firingFlags_stopped, h3, State.afterStage4_of_no_chain hnone]
      exact Bool.or_false _
  · have h3 := h3.trans (Entry.rearm_grid (a := a.counted) hpast hlate)
    have hstate : (s.firedStage3 a due).record.state = .armed (Machine.firstGridPoint due s.time.count period) := by
      rw [h3]
      rfl
    refine ⟨hstate, harmed _ hstate, fun hnotify => ?_⟩
    obtain ⟨r, hr, hflags⟩ := State.report_of_notify (s := s) (e := e) (due := due) hnotify
    refine ⟨r, hr, ?_⟩
    rw [hflags, union_skipped, State.firingFlags_skipped, h3]
    exact Bool.or_true _
  · have h3 := h3.trans (Entry.rearm_stopped (a := a.counted) hpast hlate)
    have hstate : (s.firedStage3 a due).record.state = .idle := by rw [h3]
    refine ⟨hstate, ?_, ?_⟩
    · rw [State.settleLink_dueList, State.fireEntry_dueList]
      refine fun h => State.not_mem_move (s := { s with lines := (s.lines.deliver a.action).2 }) ?_ (hmem.1 h)
      rw [hstate]
      nofun
    · obtain ⟨r, hr, hflags⟩ := State.report_of_forced (s := s) (e := e) (a := a) (due := due) (by rw [h3])
      refine ⟨r, hr, ?_⟩
      rw [hflags, union_stopped, State.firingFlags_stopped, h3]
      exact Bool.or_true _
  · obtain ⟨r, hr, hflags⟩ := State.report_of_notify (s := s) (e := e) (due := due) hnotify
    refine ⟨r, hr, ?_⟩
    rw [hflags, union_ended, State.firingFlags_ended, hended.1]
    exact Bool.or_false _

end Sys2Proof.Proofs
end

section
/-!
PROOFS. The chain of a firing (R36, R37), to another entry and to the entry itself.
-/
namespace Sys2Proof.Machine

section
variable {s : State} {e x : EntryId} {a b : Entry} {due w : Word}

theorem State.afterStage4_of_chain (h : a.chain = some x) :
    s.afterStage4 e a due = (s.afterStage3 e a due).stage4 (some x) due := by
  rw [State.afterStage4, State.firedStage3_chain, h]

/-- Stage 3 re-arms the entry: no step is refused, firings are to come, and the next due is not late under REFUSE. -/
def State.Rearms (s : State) (a : Entry) (due : Word) : Prop :=
  ¬ stepRefused s a ∧ ¬ a.Completes ∧ (0 ≤ difference (due + a.firedPeriod) s.time.count ∨ a.late ≠ .refuse)

theorem State.state_of_rearms (h : s.Rearms a due) :
    (s.firedStage3 a due).record.state =
      .armed (if 0 ≤ difference (due + a.firedPeriod) s.time.count then due + a.firedPeriod
        else Machine.firstGridPoint due s.time.count a.firedPeriod) := by
  obtain ⟨hstep, hcompletes, hlate⟩ := h
  rw [State.firedStage3_rearms hstep hcompletes]
  by_cases hahead : 0 ≤ difference (due + a.firedPeriod) s.time.count
  · rw [Entry.rearm_ahead (a := a.counted) hahead, if_pos hahead]
    rfl
  · rw [Entry.rearm_grid (a := a.counted) (Int.not_le.1 hahead) (hlate.resolve_left hahead), if_neg hahead]
    rfl

theorem State.state_of_not_rearms (h : ¬ s.Rearms a due) :
    (s.firedStage3 a due).record.state = .idle ∨ (s.firedStage3 a due).record.state = .parked := by
  by_cases hstep : stepRefused s a
  · rw [State.firedStage3_limit ((deliver_refused_iff s a).2 hstep)]
    exact .inl rfl
  by_cases hcompletes : a.Completes
  · rw [State.firedStage3_completes hstep hcompletes, Entry.complete_eq]
    dsimp only
    split
    · exact .inr rfl
    · exact .inl rfl
  · obtain ⟨hahead, hlate⟩ := not_or.1 fun hlate => h ⟨hstep, hcompletes, hlate⟩
    rw [State.firedStage3_rearms hstep hcompletes, Entry.rearm_stopped (a := a.counted) (Int.not_le.1 hahead) (Classical.not_not.1 hlate)]
    exact .inl rfl

/-- The fields of the record after stage 3 that stage 4 reads (R31, R36). -/
theorem State.firedStage3_fields (s : State) (a : Entry) (due : Word) :
    (s.firedStage3 a due).record.delay = a.delay ∧ (s.firedStage3 a due).record.late = a.late ∧
      (s.firedStage3 a due).record.period = a.firedPeriod ∧ (s.firedStage3 a due).record.reps = a.reps := by
  obtain ⟨state, left, h⟩ := a.stage3_record (s.lines.deliver a.action).1 due s.time.count
  rw [State.firedStage3, h]
  exact ⟨rfl, rfl, rfl, rfl⟩

/-- A chain target that stage 4 arms is in the due list with left at repeat, and in no park list (R36). -/
theorem State.fired_of_chainArmed
    (h : s.afterStage4 e a due = ({}, (s.afterStage3 e a due).move x (b.chainArmed w))) :
    (s.fireEntry e a due).settleLink.entry x = some (b.chainArmed w) ∧ x ∈ (s.fireEntry e a due).settleLink.dueList ∧
      ∀ k, x ∉ ((s.fireEntry e a due).settleLink.triggers.get k).park := by
  rw [State.entry_settleLink, State.entry_fireEntry, State.settleLink_dueList, State.fireEntry_dueList,
    State.settleLink_triggers, State.fireEntry_triggers, h]
  refine ⟨?_, State.mem_move_of_armed rfl, State.not_mem_park_move nofun⟩
  rw [State.move_entry, if_pos rfl]

/-- A chain target that stage 4 does not arm is as stage 3 left it (R36). -/
theorem State.fired_of_chainKept {flags : EntryFlags} (h : s.afterStage4 e a due = (flags, s.afterStage3 e a due)) :
    (s.fireEntry e a due).settleLink.entry x = (s.afterStage3 e a due).entry x ∧
      (s.fireEntry e a due).settleLink.dueList = (s.afterStage3 e a due).dueList := by
  rw [State.entry_settleLink, State.entry_fireEntry, State.settleLink_dueList, State.fireEntry_dueList, h]
  exact ⟨rfl, rfl⟩

theorem State.report_chainBusy (h : (s.afterStage4 e a due).1.chainBusy = true) (hn : a.notify = true) :
    ∃ r, entryReport e ((s.fireEntry e a due).settleLink.notices.queues.get a.owner) = some r ∧
      r.flags.chainBusy = true := by
  obtain ⟨r, hr, hflags⟩ := State.report_of_notify (s := s) (e := e) (due := due) hn
  exact ⟨r, hr, by rw [hflags, union_chainBusy, State.firingFlags_chainBusy, h, Bool.or_true, Bool.or_true]⟩

theorem State.report_skipped (h : (s.afterStage4 e a due).1.skipped = true) (hn : a.notify = true) :
    ∃ r, entryReport e ((s.fireEntry e a due).settleLink.notices.queues.get a.owner) = some r ∧
      r.flags.skipped = true := by
  obtain ⟨r, hr, hflags⟩ := State.report_of_notify (s := s) (e := e) (due := due) hn
  exact ⟨r, hr, by rw [hflags, union_skipped, State.firingFlags_skipped, h, Bool.or_true, Bool.or_true]⟩

theorem State.report_stopped (h : (s.afterStage4 e a due).1.stopped = true) (hn : a.notify = true) :
    ∃ r, entryReport e ((s.fireEntry e a due).settleLink.notices.queues.get a.owner) = some r ∧
      r.flags.stopped = true := by
  obtain ⟨r, hr, hflags⟩ := State.report_of_notify (s := s) (e := e) (due := due) hn
  exact ⟨r, hr, by rw [hflags, union_stopped, State.firingFlags_stopped, h, Bool.or_true, Bool.or_true]⟩

/-! ### The attempt on a target that stage 3 left IDLE or PARKED -/

theorem State.afterStage4_armed (hchain : a.chain = some x) (hx : (s.afterStage3 e a due).entry x = some b)
    (hb : b.state = .idle ∨ b.state = .parked)
    (h : ¬ difference (due + b.delay) s.time.count < 0 ∨ b.late = .fire) :
    s.afterStage4 e a due = ({}, (s.afterStage3 e a due).move x (b.chainArmed (due + b.delay))) := by
  rw [State.afterStage4_of_chain hchain, State.stage4_try hx hb]
  exact State.chainTry_armed (by rwa [State.afterStage3_time])

theorem State.afterStage4_grid (hchain : a.chain = some x) (hx : (s.afterStage3 e a due).entry x = some b)
    (hb : b.state = .idle ∨ b.state = .parked) (h : difference (due + b.delay) s.time.count < 0) (hlate : b.late = .skip)
    (hp : b.period ≠ 0) :
    s.afterStage4 e a due =
      ({}, (s.afterStage3 e a due).move x
        (b.chainArmed (Machine.firstGridPoint (due + b.delay) s.time.count b.period))) := by
  rw [State.afterStage4_of_chain hchain, State.stage4_try hx hb,
    State.chainTry_grid (by rwa [State.afterStage3_time]) hlate hp, State.afterStage3_time]

theorem State.afterStage4_skipped (hchain : a.chain = some x) (hx : (s.afterStage3 e a due).entry x = some b)
    (hb : b.state = .idle ∨ b.state = .parked) (h : difference (due + b.delay) s.time.count < 0) (hlate : b.late = .skip)
    (hp : b.period = 0) : s.afterStage4 e a due = ({ skipped := true }, s.afterStage3 e a due) := by
  rw [State.afterStage4_of_chain hchain, State.stage4_try hx hb,
    State.chainTry_skipped (by rwa [State.afterStage3_time]) hlate hp]

theorem State.afterStage4_stopped (hchain : a.chain = some x) (hx : (s.afterStage3 e a due).entry x = some b)
    (hb : b.state = .idle ∨ b.state = .parked) (h : difference (due + b.delay) s.time.count < 0) (hlate : b.late = .refuse) :
    s.afterStage4 e a due = ({ stopped := true }, s.afterStage3 e a due) := by
  rw [State.afterStage4_of_chain hchain, State.stage4_try hx hb,
    State.chainTry_stopped (by rwa [State.afterStage3_time]) hlate]

theorem State.afterStage4_busy (hchain : a.chain = some x) (hx : (s.afterStage3 e a due).entry x = some b)
    (hb : ∃ w, b.state = .armed w ∨ b.state = .held w) :
    s.afterStage4 e a due = ({ chainBusy := true }, s.afterStage3 e a due) := by
  rw [State.afterStage4_of_chain hchain, State.stage4_busy hx hb]

end

end Sys2Proof.Machine

namespace Sys2Proof.Proofs
open Sys2Proof.Machine

/-- Settles O31: the target's record decides, as stage 3 left it, which for an entry chained to itself is its own. -/
theorem fireChain : Obligations.FireChain := by
  refine ⟨fun s e a due hfires hchain => ?_, fun s e x a b due hfires hchain hx hb => ⟨_, exec_fire hfires, ?_⟩⟩
  · intro period next target now late rearms
    have hrearms : rearms ↔ s.Rearms a due := by
      have hcompletes : ¬ a.Completes ↔ period ≠ 0 ∧ (a.reps = 0 ∨ a.left ≠ 1) := by
        rw [Entry.Completes, not_or, Classical.not_and_iff_not_or_not, Classical.not_not]
        rfl
      rw [State.Rearms, hcompletes, and_assoc]
      rfl
    obtain ⟨hdelay, hlate, hperiod, hreps⟩ := s.firedStage3_fields a due
    have h3 : (s.afterStage3 e a due).entry e = some (s.firedStage3 a due).record := by
      rw [State.entry_afterStage3, if_pos rfl]
    obtain ⟨b, hb⟩ : ∃ b, (s.fireEntry e a due).settleLink.entry e = some b := by
      obtain ⟨b, hb⟩ := s.entry_fireEntry_record e a due
      exact ⟨_, (State.entry_settleLink _ _).trans hb⟩
    refine ⟨_, b, exec_fire hfires, hb, fun hre => ?_, fun hre => ?_⟩
    · have hstate := State.state_of_rearms (hrearms.1 hre)
      have h4 := State.afterStage4_busy hchain h3 ⟨_, .inl hstate⟩
      obtain ⟨hentry, -⟩ := State.fired_of_chainKept (x := e) h4
      obtain rfl := Option.some.inj (hb.symm.trans (hentry.trans h3))
      exact ⟨hstate, State.report_chainBusy (by rw [h4])⟩
    have hfree := State.state_of_not_rearms fun h => hre (hrearms.2 h)
    have hnot : ∀ d, (s.firedStage3 a due).record.state ≠ .armed d := by
      obtain h | h := hfree <;> rw [h] <;> nofun
    have harmed : ∀ w, s.afterStage4 e a due = ({}, (s.afterStage3 e a due).move e ((s.firedStage3 a due).record.chainArmed w)) →
        b.state = .armed w ∧ b.left = a.reps ∧ e ∈ (s.fireEntry e a due).settleLink.dueList ∧
          ∀ k, e ∉ ((s.fireEntry e a due).settleLink.triggers.get k).park := by
      intro w h4
      obtain ⟨hentry, hlists⟩ := State.fired_of_chainArmed h4
      obtain rfl := Option.some.inj (hb.symm.trans hentry)
      exact ⟨rfl, hreps, hlists⟩
    have hkept : ∀ flags, s.afterStage4 e a due = (flags, s.afterStage3 e a due) →
        e ∉ (s.fireEntry e a due).settleLink.dueList ∧ (b.state = .idle ∨ b.state = .parked) := by
      intro flags h4
      obtain ⟨hentry, hlist⟩ := State.fired_of_chainKept (x := e) h4
      obtain rfl := Option.some.inj (hb.symm.trans (hentry.trans h3))
      rw [hlist]
      exact ⟨State.not_mem_move (s := { s with lines := (s.lines.deliver a.action).2 }) hnot, hfree⟩
    refine ⟨fun h => ?_, fun hpast hskip hp => ?_, fun hpast hskip hp => ?_, fun hpast hrefuse => ?_⟩
    · have h4 := State.afterStage4_armed hchain h3 hfree (by rwa [hdelay, hlate])
      rw [hdelay] at h4
      exact harmed _ h4
    · have h4 := State.afterStage4_grid hchain h3 hfree (by rwa [hdelay]) (hlate.trans hskip) (by rwa [hperiod])
      rw [hdelay, hperiod] at h4
      obtain ⟨hstate, hleft, hdue, -⟩ := harmed _ h4
      exact ⟨hstate, hleft, hdue⟩
    · have h4 := State.afterStage4_skipped hchain h3 hfree (by rwa [hdelay]) (hlate.trans hskip) (by rwa [hperiod])
      obtain ⟨hdue, hstate⟩ := hkept _ h4
      exact ⟨hdue, hstate, State.report_skipped (by rw [h4])⟩
    · have h4 := State.afterStage4_stopped hchain h3 hfree (by rwa [hdelay]) (hlate.trans hrefuse)
      obtain ⟨hdue, hstate⟩ := hkept _ h4
      exact ⟨hdue, hstate, State.report_stopped (by rw [h4])⟩
  · have h3 : (s.afterStage3 e a due).entry x = some b := by rw [State.entry_afterStage3, if_neg hx, hb]
    refine ⟨fun hbusy => ?_, fun hfree => ⟨fun h => ?_, fun hpast hskip hp => ?_, fun hpast hskip hp => ?_,
      fun hpast hrefuse => ?_⟩⟩
    · have h4 := State.afterStage4_busy hchain h3 hbusy
      obtain ⟨hentry, -⟩ := State.fired_of_chainKept (x := x) h4
      exact ⟨hentry.trans h3, State.report_chainBusy (by rw [h4])⟩
    · exact State.fired_of_chainArmed (State.afterStage4_armed hchain h3 hfree h)
    · exact State.fired_of_chainArmed (State.afterStage4_grid hchain h3 hfree hpast hskip hp)
    · have h4 := State.afterStage4_skipped hchain h3 hfree hpast hskip hp
      obtain ⟨hentry, -⟩ := State.fired_of_chainKept (x := x) h4
      exact ⟨hentry.trans h3, State.report_skipped (by rw [h4])⟩
    · have h4 := State.afterStage4_stopped hchain h3 hfree hpast hrefuse
      obtain ⟨hentry, -⟩ := State.fired_of_chainKept (x := x) h4
      exact ⟨hentry.trans h3, State.report_stopped (by rw [h4])⟩

end Sys2Proof.Proofs
end

section
/-!
PROOFS. The line unit's commands (R57 to R70): CLAIM, RELEASE, SET_LINES, the group commands and READ_LINES.
-/
namespace Sys2Proof.Machine

/-! ### Claims -/

theorem LineUnit.allClaims_iff (u : LineUnit) (l : BitVec 16) (k : BitVec 8) (test : Option Port → Bool) :
    (u.allLines l test && u.allTriggers k test) = true ↔
      (∀ m : Fin 16, l.getLsbD m.val = true → test (u.lineClaims.get m) = true) ∧
        ∀ m : Fin 8, k.getLsbD m.val = true → test (u.triggerClaims.get m) = true := by
  rw [Bool.and_eq_true, LineUnit.allLines_iff, LineUnit.allTriggers_iff]

/-- CLAIM is blocked by a claim of the other port (R57). -/
theorem LineUnit.claim_allowed_iff (u : LineUnit) (l : BitVec 16) (k : BitVec 8) (q : Port) :
    (u.allLines l (· != some q) && u.allTriggers k (· != some q)) = true ↔
      ¬ ((∃ m : Fin 16, l.getLsbD m.val = true ∧ u.lineClaims.get m = some q) ∨
        ∃ m : Fin 8, k.getLsbD m.val = true ∧ u.triggerClaims.get m = some q) := by
  rw [LineUnit.allClaims_iff]
  simp only [not_or, not_exists, not_and, bne_iff_ne, ne_eq]

/-- RELEASE needs a claim on every line and trigger of its masks (R58). -/
theorem LineUnit.release_held_iff (u : LineUnit) (l : BitVec 16) (k : BitVec 8) (p : Port) :
    (u.allLines l (· == some p) && u.allTriggers k (· == some p)) = true ↔
      (∀ m : Fin 16, l.getLsbD m.val = true → u.lineClaims.get m = some p) ∧
        ∀ m : Fin 8, k.getLsbD m.val = true → u.triggerClaims.get m = some p := by
  rw [LineUnit.allClaims_iff]
  simp only [beq_iff_eq]

theorem State.anyParked_iff (s : State) (k : BitVec 8) :
    s.anyParked k = true ↔ ∃ m : Fin 8, k.getLsbD m.val = true ∧ (s.triggers.get m).park ≠ [] := by
  simp [State.anyParked]

theorem State.trigger_releaseClaims (s : State) (l : BitVec 16) (k : BitVec 8) (m : Fin 8) :
    (s.releaseClaims l k).triggers.get m =
      if k.getLsbD m.val then
        { Trigger.initial (s.triggers.get m).level (s.triggers.get m).sample with park := (s.triggers.get m).park }
      else s.triggers.get m := get_ofFn _ _

/-! ### SET_LINES -/

/-- A value bit outside the mask (R66). -/
theorem outside_mask_iff (mask levels drives : BitVec 16) :
    (levels ||| drives) &&& ~~~mask = 0 ↔
      ¬ ∃ l : Fin 16, mask.getLsbD l.val = false ∧ (levels.getLsbD l.val = true ∨ drives.getLsbD l.val = true) := by
  have hbit : ∀ i, i < 16 → ((levels ||| drives) &&& ~~~mask).getLsbD i =
      ((levels.getLsbD i || drives.getLsbD i) && !mask.getLsbD i) := by
    intro i hi
    rw [BitVec.getLsbD_and, BitVec.getLsbD_or, BitVec.getLsbD_not, decide_eq_true hi, Bool.true_and]
  constructor
  · rintro h ⟨l, hmask, hset⟩
    have hl := hbit l.val l.isLt
    rw [h, hmask, show (0 : BitVec 16).getLsbD l.val = false from BitVec.getLsbD_zero] at hl
    obtain hset | hset := hset <;> rw [hset] at hl <;> simp at hl
  · intro h
    refine BitVec.eq_of_getLsbD_eq fun i hi => ?_
    rw [hbit i hi, show (0 : BitVec 16).getLsbD i = false from BitVec.getLsbD_zero]
    refine Classical.byContradiction fun hne => ?_
    have hset : (levels.getLsbD i = true ∨ drives.getLsbD i = true) ∧ mask.getLsbD i = false := by simpa using hne
    exact h ⟨⟨i, hi⟩, hset.2, hset.1⟩

theorem readSetLinesBody_in {m0 m1 v0 v1 d0 d1 : Byte} (h : (le16 v0 v1 ||| le16 d0 d1) &&& ~~~le16 m0 m1 = 0) :
    readSetLinesBody [m0, m1, v0, v1, d0, d1] =
      some { mask := le16 m0 m1, levels := le16 v0 v1, drives := le16 d0 d1 } := if_pos h

theorem readSetLinesBody_out {m0 m1 v0 v1 d0 d1 : Byte} (h : ¬ (le16 v0 v1 ||| le16 d0 d1) &&& ~~~le16 m0 m1 = 0) :
    readSetLinesBody [m0, m1, v0, v1, d0, d1] = none := if_neg h

/-! ### The groups -/

/-- One group of the unit is replaced, and its levels follow its pattern where the command moves them (R60). -/
structure LineUnit.GroupWritten (u v : LineUnit) (g : Fin 4) (new : Group) (moves : Bool) : Prop where
  frame : v = { u with levels := v.levels, groups := v.groups }
  written : v.groups.get g = new
  others : ∀ h, h ≠ g → v.groups.get h = u.groups.get h
  levels : ∀ h, groupLevels v.levels h =
    if h = g ∧ moves = true ∧ new.mode = .sequence then new.table.get ⟨new.index.toNat, new.index.isLt⟩
    else groupLevels u.levels h

theorem LineUnit.groupWritten_putGroup (u : LineUnit) (g : Fin 4) (new : Group) :
    u.GroupWritten (u.putGroup g new) g new true where
  frame := rfl
  written := by rw [LineUnit.putGroup_groups, if_pos rfl]
  others h hh := by rw [LineUnit.putGroup_groups, if_neg hh]
  levels h := by
    rw [LineUnit.putGroup_levels]
    simp only [true_and]
    rfl

theorem LineUnit.groupWritten_setGroup (u : LineUnit) (g : Fin 4) (new : Group) :
    u.GroupWritten (u.setGroup g new) g new false where
  frame := rfl
  written := by rw [LineUnit.setGroup_groups, if_pos rfl]
  others h hh := by rw [LineUnit.setGroup_groups, if_neg hh]
  levels h := (if_neg fun hand => Bool.false_ne_true hand.2.1).symm

section
variable {i : Instr} {code : Byte} {c : Cmd} {s : State} {g : Fin 4} {new : Group} {moves : Bool} {bad : Option Result}

/-- The run of a group command after its body is read: the claim, its own check, the change (R61, R67, R68, R69). -/
structure GroupRun (i : Instr) (code : Byte) (c : Cmd) (s : State) (g : Fin 4) (new : Group) (moves : Bool)
    (bad : Option Result) : Prop where
  notClaimed : s.lines.claimsGroup c.src.port g = false → exec i s = refusedNext code c .notClaimed s
  refused : s.lines.claimsGroup c.src.port g = true → ∀ r, bad = some r → exec i s = refusedNext code c r s
  taken : s.lines.claimsGroup c.src.port g = true → bad = none →
    ∃ v, s.lines.GroupWritten v g new moves ∧ exec i s = okNext code c [] { during s c with lines := v }

theorem GroupRun.outcome (h : GroupRun i code c s g new moves bad) :
    (s.lines.claimsGroup c.src.port g = false → exec i s = refusedNext code c .notClaimed s) ∧
    (s.lines.claimsGroup c.src.port g = true →
      (∀ r, bad = some r → exec i s = refusedNext code c r s) ∧
      (bad = none → ∃ levels groups,
        exec i s = okNext code c [] { during s c with lines := { s.lines with levels := levels, groups := groups } } ∧
        groups.get g = new ∧ (∀ h, h ≠ g → groups.get h = s.lines.groups.get h) ∧
        ∀ h, groupLevels levels h =
          if h = g ∧ moves = true ∧ new.mode = .sequence then new.table.get ⟨new.index.toNat, new.index.isLt⟩
          else groupLevels s.lines.levels h)) := by
  refine ⟨h.notClaimed, fun hclaim => ⟨h.refused hclaim, fun hbad => ?_⟩⟩
  obtain ⟨v, hwritten, hexec⟩ := h.taken hclaim hbad
  exact ⟨v.levels, v.groups, by rw [hexec, ← hwritten.frame], hwritten.written, hwritten.others, hwritten.levels⟩

/-- A group command whose answer is the claim's check, its own check and its change. -/
theorem GroupRun.of_answer {answer : Answer} {r : Result} {refuses : Bool} {v : LineUnit}
    (hrun : exec i s = .next (answer.finish code c))
    (hanswer : answer = if !s.lines.claimsGroup c.src.port g then Answer.refuse .notClaimed (during s c)
      else if refuses then Answer.refuse r (during s c) else Answer.ok [] { during s c with lines := v })
    (hbad : bad = if refuses then some r else none) (hwritten : s.lines.GroupWritten v g new moves) :
    GroupRun i code c s g new moves bad where
  notClaimed hclaim := refused_of hrun (by rw [hanswer, hclaim]; rfl)
  refused hclaim r' hr := by
    rw [hbad] at hr
    cases refuses with
    | false => cases hr
    | true =>
      cases hr
      exact refused_of hrun (by rw [hanswer, hclaim]; rfl)
  taken hclaim hnone := by
    rw [hbad] at hnone
    cases refuses with
    | true => cases hnone
    | false => exact ⟨v, hwritten, ok_of hrun (by rw [hanswer, hclaim]; rfl)⟩

end

theorem length_setLimitsBytes (g : Fin 4) (limits : Option Limits) : (setLimitsBytes g limits).length = 10 := by
  cases limits <;> rfl

theorem length_loadPhasesBytes (g : Fin 4) (table : Vector (BitVec 4) 8) : (loadPhasesBytes g table).length = 9 := by
  simp [loadPhasesBytes]

/-! ### READ_LINES -/

theorem groupSummary_bits (g : Group) :
    (groupSummary g).getLsbD 0 = decide (g.mode = .sequence) ∧ (groupSummary g).getLsbD 1 = decide (g.step = .two) ∧
      (groupSummary g).getLsbD 2 = g.limits.isSome ∧ (groupSummary g).getLsbD 3 = false ∧
      (groupSummary g).extractLsb' 4 3 = g.index ∧ (groupSummary g).getLsbD 7 = false := by
  have hbits : ∀ (mode step limits : Bool) (index : BitVec 3),
      let b : Byte := bitAt mode 0 ||| bitAt step 1 ||| bitAt limits 2 ||| (index.setWidth 8 <<< 4)
      b.getLsbD 0 = mode ∧ b.getLsbD 1 = step ∧ b.getLsbD 2 = limits ∧ b.getLsbD 3 = false ∧
        b.extractLsb' 4 3 = index ∧ b.getLsbD 7 = false := by decide
  exact hbits _ _ _ _

theorem vector4_toList {α : Type} (v : Vector α 4) : v.toList = [v.get 0, v.get 1, v.get 2, v.get 3] := by
  rw [toList_eq_map_finRange]
  rfl

theorem vector16_toList {α : Type} (v : Vector α 16) :
    v.toList = [v.get 0, v.get 1, v.get 2, v.get 3, v.get 4, v.get 5, v.get 6, v.get 7, v.get 8, v.get 9, v.get 10,
      v.get 11, v.get 12, v.get 13, v.get 14, v.get 15] := by
  rw [toList_eq_map_finRange]
  rfl

theorem readGroup_none {b : Byte} (h : 3 < b.toNat) : readGroup b = none :=
  read_none fun g hg => by
    have hb := congrArg BitVec.toNat ((readGroup_iff b g).1 hg)
    rw [BitVec.toNat_ofNat] at hb
    omega

end Sys2Proof.Machine

namespace Sys2Proof.Proofs
open Sys2Proof.Machine

/-- Settles O33: the checks of CLAIM, RELEASE and SET_LINES, and what they write line by line. -/
theorem lineCommands : Obligations.LineCommands := by
  intro c s l0 l1 p lines
  refine ⟨fun ks hbody => ⟨fun ht => ?_, fun ht => ?_⟩, fun v0 v1 d0 d1 hbody ht => ?_⟩
  · intro blocked
    have hread : readMasksBody c.body = some (lines, ks) := by rw [hbody]; rfl
    have hrun := exec_body (i := .claim c) (fun _ => rfl) ht (by rw [hbody]; rfl) rfl hread rfl
    have hallowed := LineUnit.claim_allowed_iff s.lines lines ks p.other
    refine ⟨fun hb => refused_of hrun (if_neg fun h => hallowed.1 h hb), fun hfree =>
      ⟨s.lines.claim p lines ks, ok_of hrun (if_pos (hallowed.2 hfree)), rfl, get_ofFn _, get_ofFn _⟩⟩
  · intro held needed
    have hread : readMasksBody c.body = some (lines, ks) := by rw [hbody]; rfl
    have hrun := exec_body (i := .release c) (fun _ => rfl) ht (by rw [hbody]; rfl) rfl hread rfl
    have hheld := LineUnit.release_held_iff s.lines lines ks p
    have hentry : (during s c).anyEntry (fun a => a.owner == p && a.needs lines ks) = true ↔
        ∃ e a, s.entry e = some a ∧ a.owner = p ∧ a.needs lines ks = true := by
      rw [State.anyEntry_iff]
      simp only [Bool.and_eq_true, beq_iff_eq]
      rfl
    have hparked : (during s c).anyParked ks = true ↔ ∃ k : Fin 8, ks.getLsbD k.val = true ∧ (s.triggers.get k).park ≠ [] :=
      State.anyParked_iff _ _
    have hpass : held → ¬ (!(s.lines.allLines lines (· == some p) && s.lines.allTriggers ks (· == some p))) = true := by
      intro h
      rw [hheld.2 h]
      exact Bool.false_ne_true
    refine ⟨fun hnot => refused_of hrun (if_pos ?_), fun h hneeded => refused_of hrun ((if_neg (hpass h)).trans ?_),
      fun h hfree => ⟨(during s c).releaseClaims lines ks, ok_of hrun ((if_neg (hpass h)).trans ?_), rfl, ?_, ?_, fun k => ?_⟩⟩
    · show (!(s.lines.allLines lines (· == some p) && s.lines.allTriggers ks (· == some p))) = true
      rw [Bool.eq_false_iff.2 fun h => hnot (hheld.1 h)]
      rfl
    · by_cases hentries : ∃ e a, s.entry e = some a ∧ a.owner = p ∧ a.needs lines ks = true
      · exact if_pos (hentry.2 hentries)
      · exact (if_neg fun h => hentries (hentry.1 h)).trans (if_pos (hparked.2 (hneeded.resolve_left hentries)))
    · obtain ⟨hentries, hparks⟩ := not_or.1 hfree
      exact (if_neg fun h => hentries (hentry.1 h)).trans (if_neg fun h => hparks (hparked.1 h))
    · exact State.releaseClaims_lineClaims (during s c) lines ks
    · exact State.releaseClaims_triggerClaims (during s c) lines ks
    · refine (State.trigger_releaseClaims (during s c) lines ks k).trans ?_
      split
      · next hk =>
        have hempty : (s.triggers.get k).park = [] := by
          refine Classical.byContradiction fun hne => ?_
          exact hfree (.inr ⟨k, hk, hne⟩)
        show { Trigger.initial (s.triggers.get k).level (s.triggers.get k).sample with park := (s.triggers.get k).park } = _
        rw [hempty]
        rfl
      · rfl
  · intro outside sequenced claimed
    have hl : c.body.length = 6 := by rw [hbody]; rfl
    have houtside := outside_mask_iff lines (le16 v0 v1) (le16 d0 d1)
    refine ⟨fun hout => ?_, fun hin hseq => ?_, fun hin hseq hnot => ?_, fun hin hseq hall => ?_⟩
    · have hread : readSetLinesBody c.body = none := by
        rw [hbody]
        exact readSetLinesBody_out fun h => houtside.1 h hout
      exact exec_range (fun _ => rfl) ht hl rfl hread rfl
    all_goals
      have hread := (congrArg readSetLinesBody hbody).trans (readSetLinesBody_in (houtside.2 hin))
      have hrun := exec_body (i := .setLines c) (fun _ => rfl) ht hl rfl hread rfl
      have hsequence := LineUnit.anySequence_iff s.lines lines
    · exact refused_of hrun (if_pos (hsequence.2 hseq))
    all_goals
      have hsequence : ¬ s.lines.anySequence lines = true := fun h => hseq (hsequence.1 h)
      have hclaims : s.lines.allLines lines (· == some p) = true ↔ claimed := by
        rw [LineUnit.allLines_iff]
        simp only [beq_iff_eq]
        rfl
    · refine refused_of hrun ((if_neg hsequence).trans (if_pos ?_))
      show (!s.lines.allLines lines (· == some p)) = true
      rw [Bool.eq_false_iff.2 fun h => hnot (hclaims.1 h)]
      rfl
    · refine ⟨_, _, ok_of hrun ((if_neg hsequence).trans (if_neg ?_)), fun l =>
        ⟨LineUnit.write_levels s.lines ⟨lines, le16 v0 v1, le16 d0 d1⟩ l,
          LineUnit.write_drives s.lines ⟨lines, le16 v0 v1, le16 d0 d1⟩ l⟩⟩
      show ¬ (!s.lines.allLines lines (· == some p)) = true
      rw [hclaims.2 hall]
      exact Bool.false_ne_true

/-- Settles O34: each group command reads its body, checks the claim and its own condition, and writes one group. -/
theorem groupCommands : Obligations.GroupCommands := by
  refine ⟨fun c s => ⟨fun ht hl hbody => ?_, fun ht hl hbody => ?_, fun ht hl hbody => ?_, fun ht hl hbody => ?_⟩,
    fun i code c s g new moves bad ht => ?_⟩
  · have hread : readGroupModeBody c.body = none := read_none fun ⟨g, m⟩ h => hbody g m ((readGroupModeBody_iff _ _ _).1 h)
    exact exec_range (fun _ => rfl) ht hl rfl hread rfl
  · have hread : readLoadPhasesBody c.body = none :=
      read_none fun ⟨g, table⟩ h => hbody g table ((readLoadPhasesBody_iff _ _ _).1 h)
    exact exec_range (fun _ => rfl) ht hl rfl hread rfl
  · have hread : readSetGroupBody c.body = none := read_none fun ⟨g, w⟩ h => hbody g w ((readSetGroupBody_iff _ _ _).1 h)
    exact exec_range (fun _ => rfl) ht hl rfl hread rfl
  · have hread : readSetLimitsBody c.body = none := read_none fun ⟨g, limits⟩ h => by
      obtain ⟨hrange, hwritten⟩ := (readSetLimitsBody_iff _ _ _).1 h
      exact hbody g limits hrange hwritten
    exact exec_range (fun _ => rfl) ht hl rfl hread rfl
  intro group hcase
  apply GroupRun.outcome
  obtain ⟨m, rfl, rfl, hbody, rfl, rfl, hbars⟩ | ⟨table, rfl, rfl, hbody, rfl, rfl, rfl⟩ |
    ⟨w, rfl, rfl, hbody, rfl, rfl, rfl⟩ | ⟨limits, rfl, rfl, hlimits, hbody, rfl, rfl, rfl⟩ := hcase
  · have hread := (readGroupModeBody_iff _ _ _).2 hbody
    have hrun := exec_body (i := .groupMode c) (fun _ => rfl) ht (by rw [hbody]; rfl) rfl hread rfl
    refine .of_answer hrun (r := .inUse) (refuses := s.anyEntry fun a => a.bars g m) rfl ?_
      (LineUnit.groupWritten_putGroup _ _ _)
    obtain ⟨hsome, rfl⟩ | ⟨hnone, rfl⟩ := hbars
    · rw [if_pos ((State.anyEntry_iff _ _).2 hsome)]
    · refine (if_neg fun h => ?_).symm
      obtain ⟨e, a, he, ha⟩ := (State.anyEntry_iff _ _).1 h
      rw [hnone e a he] at ha
      cases ha
  · have hread := (readLoadPhasesBody_iff _ _ _).2 hbody
    have hrun := exec_body (i := .loadPhases c) (fun _ => rfl) ht (by rw [hbody, length_loadPhasesBytes]) rfl hread rfl
    exact .of_answer hrun (r := .range) (refuses := false) rfl rfl (LineUnit.groupWritten_putGroup _ _ _)
  · have hread := (readSetGroupBody_iff _ _ _).2 hbody
    have hrun := exec_body (i := .setGroup c) (fun _ => rfl) ht (by rw [hbody]; rfl) rfl hread rfl
    refine .of_answer hrun (r := .range) (refuses := !positionAllowed group.limits w.position) rfl ?_ ?_
    · cases hw : w.position with
      | none => rfl
      | some x => cases hin : withinLimits group.limits x <;> simp [positionAllowed, hin]
    · cases w.index.isSome with
      | true => exact LineUnit.groupWritten_putGroup _ _ _
      | false => exact LineUnit.groupWritten_setGroup _ _ _
  · have hread := (readSetLimitsBody_iff _ _ _).2 ⟨hlimits, hbody⟩
    have hrun := exec_body (i := .setLimits c) (fun _ => rfl) ht (by rw [hbody, length_setLimitsBytes]) rfl hread rfl
    refine .of_answer hrun (r := .range) (refuses := !withinLimits limits group.position) rfl ?_
      (LineUnit.groupWritten_setGroup _ _ _)
    cases withinLimits limits group.position <;> rfl

/-- Settles O35: the two records, byte by byte. -/
theorem readLines : Obligations.ReadLines := by
  intro c s ht u pack summary
  have hrun : ∀ {body}, c.body = body → (body.length == 0 || body.length == 1) = true →
      exec (.readLines c) s = .next ((runReadLines c.src.port c.body (during s c)).finish 0x37 c) := by
    rintro _ rfl hl
    exact exec_run_of (i := .readLines c) (fun _ => rfl) ht hl rfl
  refine ⟨fun hbody => ⟨groupSummary (u.groups.get 0), groupSummary (u.groups.get 1), groupSummary (u.groups.get 2),
    groupSummary (u.groups.get 3), ok_of (hrun hbody rfl) ?_, groupSummary_bits _, groupSummary_bits _,
    groupSummary_bits _, groupSummary_bits _⟩, fun b hbody hb => refused_of (hrun hbody rfl) ?_, fun g hbody =>
    ⟨groupSummary (u.groups.get g), ok_of (hrun hbody rfl) ?_, groupSummary_bits _⟩⟩
  · have hrecord : runReadLines c.src.port c.body (during s c) = Answer.ok (lineRecord u) (during s c) := by
      rw [hbody]
      rfl
    rw [hrecord, lineRecord, vector16_toList, vector8_toList, vector4_toList]
    simp only [claimBytes, List.map_cons, List.map_nil, List.append_assoc, List.cons_append, List.nil_append, pack]
  · have hread : readReadLinesBody c.body = none := by
      rw [hbody, readReadLinesBody, readGroup_none hb]
      rfl
    exact withBody_none _ _ hread
  · have hread : readReadLinesBody c.body = some (some g) := by
      rw [hbody, readReadLinesBody, (readGroup_iff _ g).2 rfl]
      rfl
    rw [runReadLines, withBody_some _ _ hread]
    show Answer.ok (groupRecord u g) (during s c) = _
    rw [groupRecord, vector8_toList]
    rfl

end Sys2Proof.Proofs
end

section
/-!
PROOFS. The two-sample filter (R73) and the edges of a trigger (R74, R79 to R81): the arms that an edge makes, one after
another.
-/
namespace Sys2Proof.Machine

/-! ### The two-sample filter -/

/-- Two successive samples show the level opposite to the sampled one. -/
def ShowsChange (level : Bool) (samples : List Bool) : Prop :=
  ∃ before after, samples = before ++ (!level) :: (!level) :: after

theorem ShowsChange.of_dropLast {level : Bool} {samples : List Bool} (h : ShowsChange level samples.dropLast) :
    ShowsChange level samples := by
  obtain ⟨before, after, h⟩ := h
  have hne : samples ≠ [] := by
    rintro rfl
    simp at h
  refine ⟨before, after ++ [samples.getLast hne], ?_⟩
  calc samples = samples.dropLast ++ [samples.getLast hne] := (List.dropLast_concat_getLast hne).symm
    _ = _ := by rw [h]; simp

theorem not_showsChange_nil (level : Bool) : ¬ ShowsChange level [] := fun ⟨before, after, h⟩ => by simp at h

theorem passes_dropLast_iff (level last : Bool) (samples : List Bool) :
    passes level last samples.dropLast = true ↔ ShowsChange level (last :: samples).dropLast := by
  cases samples with
  | nil => exact iff_of_false Bool.false_ne_true (not_showsChange_nil level)
  | cons b rest => exact passes_iff level last (b :: rest).dropLast

theorem filtered_kept {level last : Bool} {samples : List Bool} (h : ¬ ShowsChange level (last :: samples)) :
    filtered level last samples = .kept (samples.getLastD last) := by
  have hpass : passes level last samples = false := Bool.eq_false_iff.2 fun hp => h ((passes_iff _ _ _).1 hp)
  obtain ⟨-, hkept⟩ | ⟨hp, -⟩ | ⟨hp, -⟩ := filtered_outcome level last samples
  · exact hkept
  · exact absurd (hp.symm.trans hpass) (by decide)
  · exact absurd (hp.symm.trans hpass) (by decide)

theorem filtered_beyond {level last : Bool} {samples : List Bool} (h : ShowsChange level (last :: samples).dropLast) :
    filtered level last samples = .beyond := by
  have hpass := (passes_iff level last samples).2 h.of_dropLast
  have hdrop := (passes_dropLast_iff level last samples).2 h
  obtain ⟨hp, -⟩ | ⟨-, -, hbeyond⟩ | ⟨-, hp, -⟩ := filtered_outcome level last samples
  · exact absurd (hpass.symm.trans hp) (by decide)
  · exact hbeyond
  · exact absurd (hdrop.symm.trans hp) (by decide)

theorem filtered_changed {level last : Bool} {samples : List Bool} (h : ShowsChange level (last :: samples))
    (hdrop : ¬ ShowsChange level (last :: samples).dropLast) : filtered level last samples = .changed := by
  have hpass := (passes_iff level last samples).2 h
  have hnot : passes level last samples.dropLast = false :=
    Bool.eq_false_iff.2 fun hp => hdrop ((passes_dropLast_iff _ _ _).1 hp)
  obtain ⟨hp, -⟩ | ⟨-, hp, -⟩ | ⟨-, -, hchanged⟩ := filtered_outcome level last samples
  · exact absurd (hpass.symm.trans hp) (by decide)
  · exact absurd (hp.symm.trans hnot) (by decide)
  · exact hchanged

/-! ### Insertions one after another -/

section
variable {key : EntryId → Int} {e f x : EntryId} {l d : List EntryId} {n : Int}

/-- Entries put into a list one after another, each at its key (R26). -/
def insertAll (key : EntryId → Int) (l d : List EntryId) : List EntryId :=
  l.foldl (fun d e => insertBy key (key e) e d) d

theorem mem_insertAll : x ∈ insertAll key l d ↔ x ∈ d ∨ x ∈ l := by
  induction l generalizing d with
  | nil => simp [insertAll]
  | cons e l ih =>
    refine ih.trans ?_
    rw [mem_insertBy, List.mem_cons, or_assoc, or_left_comm]

theorem sublist_insertBy (key : EntryId → Int) (n : Int) (e : EntryId) (l : List EntryId) :
    l.Sublist (insertBy key n e l) := by
  obtain ⟨before, after, hsplit, hl, -, -⟩ := insertBy_split key n e l
  rw [hsplit, ← hl]
  exact (List.sublist_cons_self e after).append_left before

theorem sublist_insertAll (key : EntryId → Int) (l d : List EntryId) : d.Sublist (insertAll key l d) := by
  induction l generalizing d with
  | nil => exact .refl d
  | cons e l ih => exact (sublist_insertBy key (key e) e d).trans (ih _)

/-- An entry before the first whose key is above a bound stays there when another is inserted. -/
theorem mem_takeWhile_insertBy (h : x ∈ d.takeWhile fun y => decide (key y ≤ n)) :
    x ∈ (insertBy key (key e) e d).takeWhile fun y => decide (key y ≤ n) := by
  induction d with
  | nil => cases h
  | cons y d ih =>
    have hy : key y ≤ n := by
      refine Classical.byContradiction fun hy => ?_
      rw [List.takeWhile_cons_of_neg (by simpa using hy)] at h
      cases h
    rw [List.takeWhile_cons_of_pos (by simpa using hy)] at h
    unfold insertBy
    split
    · rw [List.takeWhile_cons_of_pos (by simpa using hy)]
      exact List.mem_cons.2 ((List.mem_cons.1 h).imp_right ih)
    · next hne =>
      rw [List.takeWhile_cons_of_pos (by simp; omega), List.takeWhile_cons_of_pos (by simpa using hy)]
      exact List.mem_cons_of_mem _ h

theorem mem_takeWhile_insertAll (h : x ∈ d.takeWhile fun y => decide (key y ≤ n)) :
    x ∈ (insertAll key l d).takeWhile fun y => decide (key y ≤ n) := by
  induction l generalizing d with
  | nil => exact h
  | cons e l ih => exact ih (mem_takeWhile_insertBy h)

/-- The inserted entry itself stands before the first whose key is above its own. -/
theorem mem_takeWhile_insertBy_self : e ∈ (insertBy key (key e) e d).takeWhile fun y => decide (key y ≤ key e) := by
  obtain ⟨before, after, hsplit, -, hbefore, -⟩ := insertBy_split key (key e) e d
  rw [hsplit, List.takeWhile_append_of_pos fun y hy => by simpa using hbefore y hy,
    List.takeWhile_cons_of_pos (by simp)]
  simp

/-- An entry is inserted behind those before the first whose key is above its own. -/
theorem pair_sublist_insertBy (h : x ∈ d.takeWhile fun y => decide (key y ≤ key e)) :
    [x, e].Sublist (insertBy key (key e) e d) := by
  induction d with
  | nil => cases h
  | cons y d ih =>
    have hy : key y ≤ key e := by
      refine Classical.byContradiction fun hy => ?_
      rw [List.takeWhile_cons_of_neg (by simpa using hy)] at h
      cases h
    rw [List.takeWhile_cons_of_pos (by simpa using hy)] at h
    rw [insertBy, if_pos hy]
    obtain rfl | h := List.mem_cons.1 h
    · exact List.Sublist.cons_cons _ (List.singleton_sublist.2 ((mem_insertBy _ _ _ _ _).2 (.inl rfl)))
    · exact .cons _ (ih h)

theorem pair_sublist_insertAll (h : x ∈ d.takeWhile fun y => decide (key y ≤ key e)) (he : e ∈ l) :
    [x, e].Sublist (insertAll key l d) := by
  obtain ⟨before, after, rfl⟩ := List.append_of_mem he
  rw [insertAll, List.foldl_append, List.foldl_cons]
  exact (pair_sublist_insertBy (mem_takeWhile_insertAll (l := before) h)).trans (sublist_insertAll key after _)

/-- Entries of one key stand in the order of their insertion. -/
theorem insertAll_order (h : [e, f].Sublist l) (hkey : key e = key f) : [e, f].Sublist (insertAll key l d) := by
  induction l generalizing d with
  | nil => cases h
  | cons g l ih =>
    cases h with
    | cons _ h => exact ih h
    | cons_cons _ h =>
      have hmem : f ∈ l := List.singleton_sublist.1 h
      have hself : e ∈ (insertBy key (key e) e d).takeWhile fun y => decide (key y ≤ key f) := by
        rw [← hkey]
        exact mem_takeWhile_insertBy_self
      exact pair_sublist_insertAll (d := insertBy key (key e) e d) hself hmem

/-- In a sorted list every entry stands before the first whose key is above its own. -/
theorem mem_takeWhile_of_sorted (h : d.Pairwise fun x y => key x ≤ key y) (hx : x ∈ d) (hn : key x ≤ n) :
    x ∈ d.takeWhile fun y => decide (key y ≤ n) := by
  induction d with
  | nil => cases hx
  | cons y d ih =>
    obtain rfl | hmem := List.mem_cons.1 hx
    · rw [List.takeWhile_cons_of_pos (by simpa using hn)]
      exact List.mem_cons_self
    · have hy : key y ≤ n := Int.le_trans (List.rel_of_pairwise_cons h hmem) hn
      rw [List.takeWhile_cons_of_pos (by simpa using hy)]
      exact List.mem_cons_of_mem _ (ih h.of_cons hmem)

end

/-! ### The arms that an edge makes (R79 to R81) -/

/-- The entries of a list armed one after another at their delays after the capture. -/
def State.armAll (s : State) (capture : Word) (l : List EntryId) : State :=
  l.foldl (fun s' e => s'.edgeArm capture e) s

/-- The record of a parked entry that an edge arms (R79). -/
def Entry.edgeArmed (a : Entry) (capture : Word) : Entry := { a with state := .armed (capture + a.delay), left := a.reps }

/-- The entries that an accepted edge takes: the head, or all (R80, R81). -/
def Trigger.taken (r : Trigger) : List EntryId :=
  match r.mode with
  | .one => r.park.take 1
  | .all => r.park

theorem Trigger.taken_eq_take (r : Trigger) : r.taken = r.park.take r.taken.length := by
  unfold Trigger.taken
  cases r.mode with
  | one => cases r.park <;> simp
  | all => simp

theorem State.edgeArms_eq (s : State) (k : Fin 8) (capture : Word) :
    s.edgeArms k capture = s.armAll capture (s.triggers.get k).taken := by
  unfold State.edgeArms Trigger.taken
  cases (s.triggers.get k).mode with
  | one => cases (s.triggers.get k).park <;> rfl
  | all => rfl

section
variable {s : State} {capture : Word} {e x : EntryId} {a : Entry} {l : List EntryId}

theorem State.edgeArm_eq (h : s.entry e = some a) : s.edgeArm capture e = s.move e (a.edgeArmed capture) := by
  simp only [State.edgeArm, h, Entry.edgeArmed]

theorem State.armAll_cons (s : State) (capture : Word) (e : EntryId) (l : List EntryId) :
    s.armAll capture (e :: l) = (s.edgeArm capture e).armAll capture l := rfl

theorem State.armAll_frame (s : State) (capture : Word) (l : List EntryId) :
    s.armAll capture l =
      { s with entries := (s.armAll capture l).entries, dueList := (s.armAll capture l).dueList
               armedPast := (s.armAll capture l).armedPast, triggers := (s.armAll capture l).triggers } :=
  (foldl_edgeArm_moves s capture l).frame

theorem State.edgeArm_time (s : State) (capture : Word) (e : EntryId) : (s.edgeArm capture e).time = s.time := by
  rw [(s.edgeArm_moves capture e).frame]

theorem State.armAll_time (s : State) (capture : Word) (l : List EntryId) : (s.armAll capture l).time = s.time := by
  rw [State.armAll_frame]

theorem State.entry_edgeArm_ne (hx : x ≠ e) : (s.edgeArm capture e).entry x = s.entry x := by
  cases h : s.entry e with
  | none => simp [State.edgeArm, h]
  | some a => rw [State.edgeArm_eq h, State.move_entry, if_neg hx]

theorem State.entry_armAll_of_not_mem (hx : x ∉ l) : (s.armAll capture l).entry x = s.entry x := by
  induction l generalizing s with
  | nil => rfl
  | cons e l ih =>
    obtain ⟨hxe, hxl⟩ := List.ne_and_not_mem_of_not_mem_cons hx
    exact (ih hxl).trans (State.entry_edgeArm_ne hxe)

theorem State.armedPast_armAll_of_not_mem (hx : x ∉ l) :
    (s.armAll capture l).armedPast.get x = s.armedPast.get x := by
  induction l generalizing s with
  | nil => rfl
  | cons e l ih =>
    obtain ⟨hxe, hxl⟩ := List.ne_and_not_mem_of_not_mem_cons hx
    rw [State.armAll_cons, ih hxl]
    cases h : s.entry e with
    | none => simp [State.edgeArm, h]
    | some a => rw [State.edgeArm_eq h, State.armedPast_move_ne hxe]

/-- Every entry taken ends ARMED at its delay after the capture, with the record of how far that was past. -/
theorem State.armed_armAll (hl : l.Nodup) (hx : x ∈ l) (h : s.entry x = some a) :
    (s.armAll capture l).entry x = some (a.edgeArmed capture) ∧
      (s.armAll capture l).armedPast.get x = ticksPast (capture + a.delay) s.time.count := by
  induction l generalizing s with
  | nil => cases hx
  | cons e l ih =>
    obtain ⟨hel, hl⟩ := List.nodup_cons.1 hl
    obtain rfl | hxl := List.mem_cons.1 hx
    · have hentry : (s.edgeArm capture x).entry x = some (a.edgeArmed capture) := by
        rw [State.edgeArm_eq h, State.move_entry, if_pos rfl]
      have hpast : (s.edgeArm capture x).armedPast.get x = ticksPast (capture + a.delay) s.time.count := by
        rw [State.edgeArm_eq h]
        exact State.armedPast_move_of_armed rfl
      exact ⟨(State.entry_armAll_of_not_mem hel).trans hentry, (State.armedPast_armAll_of_not_mem hel).trans hpast⟩
    · have hxe : x ≠ e := fun hxe => hel (hxe ▸ hxl)
      have hind := ih hl hxl ((State.entry_edgeArm_ne (capture := capture) hxe).trans h)
      rwa [State.edgeArm_time] at hind

/-- The entries taken leave every park list. -/
theorem State.triggers_armAll (hl : l.Nodup) (h : ∀ e ∈ l, (s.entry e).isSome = true) (k : Fin 8) :
    (s.armAll capture l).triggers.get k =
      { s.triggers.get k with park := (s.triggers.get k).park.filter fun x => decide (x ∉ l) } := by
  induction l generalizing s with
  | nil =>
    rw [List.filter_eq_self.2 fun x _ => decide_eq_true (List.not_mem_nil (a := x))]
    rfl
  | cons e l ih =>
    obtain ⟨hel, hl⟩ := List.nodup_cons.1 hl
    obtain ⟨a, ha⟩ := Option.isSome_iff_exists.1 (h e List.mem_cons_self)
    have hrest : ∀ x ∈ l, ((s.edgeArm capture e).entry x).isSome = true := fun x hx => by
      have hxe : x ≠ e := fun hxe => hel (hxe ▸ hx)
      rw [State.entry_edgeArm_ne hxe]
      exact h x (List.mem_cons_of_mem _ hx)
    refine (ih hl hrest).trans ?_
    have hstate : ¬ ((a.edgeArmed capture).state = .parked ∧ (a.edgeArmed capture).trigger = some k) := nofun
    rw [State.edgeArm_eq ha, State.move_triggers, if_neg hstate, List.append_nil, List.filter_filter]
    refine congrArg (fun l => { s.triggers.get k with park := l }) (List.filter_congr fun x _ => ?_)
    by_cases hxe : x = e <;> by_cases hxl : x ∈ l <;> simp [hxe, hxl]

/-- The entries taken are put into the due list one after another, at the keys they end with. -/
theorem State.dueList_armAll {key : EntryId → Int} (hl : l.Nodup) (hout : ∀ e ∈ l, e ∉ s.dueList)
    (hold : ∀ x ∈ s.dueList, key x = s.keyOf x)
    (hnew : ∀ e ∈ l, ∃ a, s.entry e = some a ∧ key e = difference (capture + a.delay) s.time.count) :
    (s.armAll capture l).dueList = insertAll key l s.dueList := by
  induction l generalizing s with
  | nil => rfl
  | cons e l ih =>
    obtain ⟨hel, hl⟩ := List.nodup_cons.1 hl
    obtain ⟨a, ha, hkey⟩ := hnew e List.mem_cons_self
    have hout_e : e ∉ s.dueList := hout e List.mem_cons_self
    have hne : ∀ x ∈ s.dueList, x ≠ e := fun x hx hxe => hout_e (hxe ▸ hx)
    have hfilter : s.dueList.filter (· ≠ e) = s.dueList := List.filter_eq_self.2 fun x hx => by simpa using hne x hx
    have hlist : (s.edgeArm capture e).dueList = insertBy key (key e) e s.dueList := by
      rw [State.edgeArm_eq ha, State.move_dueList, hfilter, hkey]
      exact (insertBy_congr hold _ _).symm
    have hentry : (s.edgeArm capture e).entry e = some (a.edgeArmed capture) := by
      rw [State.edgeArm_eq ha, State.move_entry, if_pos rfl]
    refine (ih (s := s.edgeArm capture e) hl (fun x hx hmem => ?_) (fun x hx => ?_) fun x hx => ?_).trans ?_
    · rw [hlist, mem_insertBy] at hmem
      obtain rfl | hmem := hmem
      · exact hel hx
      · exact hout x (List.mem_cons_of_mem _ hx) hmem
    · rw [hlist, mem_insertBy] at hx
      obtain rfl | hx := hx
      · rw [hkey, State.keyOf_of_due (State.dueOf_of_armed hentry rfl), State.edgeArm_time]
      · rw [hold x hx]
        refine (State.keyOf_congr (State.dueOf_congr (State.entry_edgeArm_ne (hne x hx))) ?_).symm
        rw [State.edgeArm_time]
    · obtain ⟨b, hb, hkey⟩ := hnew x (List.mem_cons_of_mem _ hx)
      have hxe : x ≠ e := fun hxe => hel (hxe ▸ hx)
      exact ⟨b, (State.entry_edgeArm_ne hxe).trans hb, by rw [hkey, State.edgeArm_time]⟩
    · rw [hlist]
      rfl

end

end Sys2Proof.Machine
end

section
/-!
PROOFS. The obligations of the triggers (R73 to R87) and of the notices (R94 to R99).
-/
namespace Sys2Proof.Machine

/-! ### An edge -/

theorem EdgeSelection.accepts_iff (edge : EdgeSelection) (level : Bool) :
    edge.accepts (!level) = true ↔
      edge = .both ∨ (edge = .rising ∧ level = false) ∨ (edge = .falling ∧ level = true) := by
  cases edge <;> cases level <;> simp [EdgeSelection.accepts]

theorem State.acceptsEdge_iff (s : State) (k : Fin 8) :
    s.acceptsEdge k = true ↔
      ((s.triggers.get k).edge = .both ∨ ((s.triggers.get k).edge = .rising ∧ (s.triggers.get k).level = false) ∨
        ((s.triggers.get k).edge = .falling ∧ (s.triggers.get k).level = true)) ∧ s.time.frozen = false := by
  rw [State.acceptsEdge, Bool.and_eq_true, EdgeSelection.accepts_iff, Bool.not_eq_true']

/-- What an edge makes of the trigger, but for its park list (R73, R74). -/
def State.edged (s : State) (k : Fin 8) : Trigger :=
  if s.acceptsEdge k then (s.triggers.get k).accepted s.time.count else (s.triggers.get k).flip

/-- The entries an edge arms: those the trigger takes, if it accepts the edge (R74, R80, R81). -/
def State.edgeTaken (s : State) (k : Fin 8) : List EntryId :=
  if s.acceptsEdge k then (s.triggers.get k).taken else []

theorem State.takeEdge_eq (s : State) (k : Fin 8) :
    s.takeEdge k = (s.setTrigger k (s.edged k)).armAll s.time.count (s.edgeTaken k) := by
  unfold State.takeEdge State.edged State.edgeTaken
  split
  · rw [State.edgeArms_eq, State.setTrigger_triggers, get_set_self]
    rfl
  · rfl

theorem State.edged_park (s : State) (k : Fin 8) : (s.edged k).park = (s.triggers.get k).park := by
  unfold State.edged
  split <;> rfl

theorem saturate8_eq (n : BitVec 8) : saturate8 n = if n = 255 then 255 else n + 1 := by
  unfold saturate8
  split
  · next h => rw [h]
  · rfl

section
variable {s : State} {k : Fin 8} {e x : EntryId}

theorem State.edgeTaken_eq_take (s : State) (k : Fin 8) :
    s.edgeTaken k = (s.triggers.get k).park.take (s.edgeTaken k).length := by
  unfold State.edgeTaken
  split
  · exact Trigger.taken_eq_take _
  · rfl

theorem State.edgeTaken_mem_park (he : e ∈ s.edgeTaken k) : e ∈ (s.triggers.get k).park := by
  rw [State.edgeTaken_eq_take] at he
  exact List.mem_of_mem_take he

theorem ListLaw.edgeTaken_nodup (h : ListLaw s) : (s.edgeTaken k).Nodup := by
  rw [State.edgeTaken_eq_take]
  exact (h.parkOnce k).sublist (List.take_sublist _ _)

theorem ListLaw.edgeTaken_parked (h : ListLaw s) (he : e ∈ s.edgeTaken k) :
    ∃ a, s.entry e = some a ∧ a.state = .parked ∧ a.trigger = some k :=
  (h.parked k e).1 (State.edgeTaken_mem_park he)

theorem ListLaw.edgeTaken_not_due (h : ListLaw s) (he : e ∈ s.edgeTaken k) : e ∉ s.dueList := by
  obtain ⟨a, ha, hstate, -⟩ := h.edgeTaken_parked he
  have hnone : s.dueOf e = none := State.dueOf_of_not_armed ha (by rw [hstate]; nofun)
  rw [h.dueArmed, hnone]
  exact Bool.false_ne_true

/-- Without duplicates, what follows the first entries is what is not among them. -/
theorem exists_pair_of_length {α : Type} : ∀ {l : List α}, l.length = 2 → ∃ x y, l = [x, y]
  | [x, y], _ => ⟨x, y, rfl⟩

theorem filter_not_mem_take {l : List EntryId} (h : l.Nodup) (n : Nat) :
    l.filter (fun x => decide (x ∉ l.take n)) = l.drop n := by
  have hsplit := List.take_append_drop n l
  have hnodup := h
  rw [← hsplit, List.nodup_append] at hnodup
  obtain ⟨-, -, hdisjoint⟩ := hnodup
  conv => lhs; rw [← hsplit]
  rw [List.filter_append, List.filter_eq_nil_iff.2, List.filter_eq_self.2, List.nil_append]
  · intro x hx
    have hnot : x ∉ l.take n := fun hmem => hdisjoint x hmem x hx rfl
    simpa [hsplit] using hnot
  · intro x hx
    simpa [hsplit] using hx

theorem ListLaw.park_edged (h : ListLaw s) :
    (s.triggers.get k).park.filter (fun x => decide (x ∉ s.edgeTaken k)) =
      (s.triggers.get k).park.drop (s.edgeTaken k).length := by
  conv => lhs; rw [State.edgeTaken_eq_take]
  exact filter_not_mem_take (h.parkOnce k) _

theorem ListLaw.park_other (h : ListLaw s) {j : Fin 8} (hj : j ≠ k) :
    (s.triggers.get j).park.filter (fun x => decide (x ∉ s.edgeTaken k)) = (s.triggers.get j).park := by
  refine List.filter_eq_self.2 fun x hx => decide_eq_true fun hmem => hj ?_
  obtain ⟨a, ha, -, hk⟩ := h.edgeTaken_parked hmem
  obtain ⟨b, hb, -, hjb⟩ := (h.parked j x).1 hx
  rw [ha] at hb
  cases hb
  exact Option.some.inj (hjb.symm.trans hk)

/-- The triggers after an edge. -/
theorem ListLaw.triggers_takeEdge (h : ListLaw s) (j : Fin 8) :
    (s.takeEdge k).triggers.get j =
      if j = k then { s.edged k with park := (s.triggers.get k).park.drop (s.edgeTaken k).length }
      else s.triggers.get j := by
  have hallocated : ∀ e ∈ s.edgeTaken k, ((s.setTrigger k (s.edged k)).entry e).isSome = true := fun e he => by
    obtain ⟨a, ha, -⟩ := h.edgeTaken_parked he
    exact Option.isSome_iff_exists.2 ⟨a, ha⟩
  rw [State.takeEdge_eq, State.triggers_armAll h.edgeTaken_nodup hallocated, State.setTrigger_triggers]
  by_cases hj : j = k
  · subst hj
    rw [get_set_self, if_pos rfl, State.edged_park, h.park_edged]
  · rw [get_set_ne _ _ _ _ hj, if_neg hj, h.park_other hj]

/-- An entry that an edge takes ends ARMED, with its record of how far its due was past. -/
theorem ListLaw.armed_takeEdge (h : ListLaw s) {a : Entry} (he : e ∈ s.edgeTaken k) (ha : s.entry e = some a) :
    (s.takeEdge k).entry e = some (a.edgeArmed s.time.count) ∧
      (s.takeEdge k).armedPast.get e = ticksPast (s.time.count + a.delay) s.time.count := by
  rw [State.takeEdge_eq]
  exact State.armed_armAll (s := s.setTrigger k (s.edged k)) h.edgeTaken_nodup he ha

theorem State.entry_takeEdge_of_not_taken (he : e ∉ s.edgeTaken k) : (s.takeEdge k).entry e = s.entry e := by
  rw [State.takeEdge_eq]
  exact State.entry_armAll_of_not_mem he

/-- An edge puts the entries it takes into the due list, one after another. -/
theorem ListLaw.dueList_takeEdge (h : ListLaw s) :
    (s.takeEdge k).dueList = insertAll (s.takeEdge k).keyOf (s.edgeTaken k) s.dueList := by
  have htime : (s.takeEdge k).time = s.time := by
    rw [State.takeEdge_eq, State.armAll_time]
    rfl
  have hold : ∀ x ∈ s.dueList, (s.takeEdge k).keyOf x = s.keyOf x := fun x hx =>
    State.keyOf_congr (State.dueOf_congr (State.entry_takeEdge_of_not_taken fun hmem => h.edgeTaken_not_due hmem hx))
      (by rw [htime])
  have hnew : ∀ e ∈ s.edgeTaken k, ∃ a, s.entry e = some a ∧
      (s.takeEdge k).keyOf e = difference (s.time.count + a.delay) s.time.count := fun e he => by
    obtain ⟨a, ha, -⟩ := h.edgeTaken_parked he
    obtain ⟨harmed, -⟩ := h.armed_takeEdge he ha
    exact ⟨a, ha, by rw [State.keyOf_of_due (State.dueOf_of_armed harmed rfl), htime]⟩
  have hlist := State.dueList_armAll (s := s.setTrigger k (s.edged k)) (capture := s.time.count) h.edgeTaken_nodup
    (fun e he => h.edgeTaken_not_due he) hold hnew
  rwa [← State.takeEdge_eq] at hlist

end

/-! ### TRIGGER_CONFIG -/

/-- The byte of an edge selection (Table 10.16). -/
def edgeByte : EdgeSelection → Byte
  | .none => 0
  | .rising => 1
  | .falling => 2
  | .both => 3

theorem readEdge_iff (b : Byte) (edge : EdgeSelection) : readEdge b = some edge ↔ b = edgeByte edge := by
  constructor
  · intro h
    unfold readEdge at h
    repeat' split at h
    all_goals cases h
    all_goals assumption
  · rintro rfl
    cases edge <;> rfl

theorem readEdge_none {b : Byte} (h : 3 < b.toNat) : readEdge b = none :=
  read_none fun edge he => by
    have hle : (edgeByte edge).toNat ≤ 3 := by cases edge <;> decide
    rw [(readEdge_iff b edge).1 he] at h
    omega

theorem readSwitch_none {b : Byte} (h : 1 < b.toNat) : readSwitch b = none :=
  read_none fun on hon => by
    have hle : (if on = true then (1 : Byte) else 0).toNat ≤ 1 := by cases on <;> decide
    rw [(readSwitch_iff b on).1 hon] at h
    omega

theorem readTriggerNumber_none {b : Byte} (h : 7 < b.toNat) : readTriggerNumber b = none :=
  read_none fun k hk => by
    have hb := congrArg BitVec.toNat ((readTriggerNumber_iff b k).1 hk)
    rw [BitVec.toNat_ofNat] at hb
    omega

/-! ### TAKE and NOTICE_CONFIG -/

theorem readTakeBody_in {b : Byte} (h1 : 1 ≤ b.toNat) (h3 : b.toNat ≤ 3) : readTakeBody [b] = some b.toNat :=
  if_pos ⟨h1, h3⟩

theorem readTakeBody_out {b : Byte} (h : b = 0 ∨ 3 < b.toNat) : readTakeBody [b] = none := by
  refine if_neg fun ⟨h1, h3⟩ => ?_
  obtain rfl | h := h
  · exact absurd h1 (by decide)
  · omega

theorem readSwitch_of_le {b : Byte} (h : b.toNat ≤ 1) : readSwitch b = some (decide (b = 1)) := by
  refine (readSwitch_iff b _).2 ?_
  by_cases h1 : b = 1
  · rw [if_pos (decide_eq_true h1), h1]
  · rw [if_neg (by simpa using h1)]
    bv_omega

theorem NoticeUnit.afterTake_queues (n : NoticeUnit) (p : Port) : (n.afterTake p).queues = n.queues := by cases p <;> rfl

/-- The unit after a TAKE, whether or not it consumes (R94, R95). -/
def State.taken (s : State) (p : Port) (count : Nat) : NoticeUnit :=
  if s.takeKeeps p then s.notices.afterTake p
  else (s.notices.setQueue p ((s.notices.queues.get p).drop count)).afterTake p

theorem runTake_eq {p : Port} {body : List Byte} {s : State} {count : Nat} (hread : readTakeBody body = some count) :
    runTake p body s =
      { Answer.ok (takeBody ((s.notices.queues.get p).take count)) { s with notices := s.taken p count } with
        notConsumed := s.takeKeeps p } := by
  rw [runTake, withBody_some _ _ hread, State.taken]
  cases s.takeKeeps p <;> rfl

theorem State.queues_taken (s : State) (p : Port) (count : Nat) :
    (s.taken p count).queues.get p =
      (if s.takeKeeps p then s.notices.queues.get p else (s.notices.queues.get p).drop count) ∧
    (s.taken p count).queues.get p.other = s.notices.queues.get p.other := by
  unfold State.taken
  split
  · rw [NoticeUnit.afterTake_queues]
    exact ⟨rfl, rfl⟩
  · rw [NoticeUnit.afterTake_queues]
    exact ⟨NoticeUnit.setQueue_get _ _ _, NoticeUnit.setQueue_get_other _ _ _⟩

theorem State.taken_frame (s : State) (p : Port) (count : Nat) :
    s.taken p count =
      { s.notices with queues := (s.taken p count).queues, marker := (s.taken p count).marker } := by
  unfold State.taken
  split
  · cases p <;> rfl
  · cases p <;> rfl

theorem State.marker_taken_spi (s : State) (count : Nat) : (s.taken .spi count).marker = s.notices.marker := by
  unfold State.taken
  split <;> rfl

/-- A link TAKE that leaves items raises the marker request with signalling on, and one that empties the queue withdraws
it (R98, R99). -/
theorem State.marker_taken_link (s : State) (count : Nat) :
    (s.taken .link count).marker =
      if (s.taken .link count).queues.link.isEmpty then s.takeKeeps .link && s.notices.marker
      else s.notices.marker || s.notices.signalling.link := by
  unfold State.taken
  cases s.takeKeeps .link with
  | true => cases hq : s.notices.queues.link <;> simp [NoticeUnit.afterTake, hq]
  | false =>
    cases hq : s.notices.queues.link.drop count with
    | nil => simp [NoticeUnit.afterTake, NoticeUnit.setQueue, PerPort.set, PerPort.get, hq]
    | cons i q =>
      simp only [NoticeUnit.afterTake, NoticeUnit.setQueue, PerPort.set, PerPort.get, hq]
      cases s.notices.signalling.link <;> simp

theorem NoticeUnit.notice0_eq (n : NoticeUnit) :
    n.notice0 = decide (n.queues.spi ≠ [] ∧ n.signalling.spi = true) := by
  unfold NoticeUnit.notice0
  cases n.queues.spi <;> simp

end Sys2Proof.Machine

namespace Sys2Proof.Proofs
open Sys2Proof.Machine

/-- Settles O36: the edge flips the level, and the entries it takes are inserted one after another. -/
theorem triggerEdge : Obligations.TriggerEdge := by
  intro s k samples hphase hlists r seen edge now matching armed
  have hrunning : s.running = true := by simp [State.running, hphase]
  have hexec : exec (.triggerEdge k samples) s =
      match filtered r.level r.sample samples with
      | .kept b => .next (s.setTrigger k { r with sample := b })
      | .changed => .next (s.takeEdge k)
      | .beyond => .next s := if_pos hrunning
  refine ⟨fun h => ?_, fun h => ?_, fun h hdrop => ⟨s.takeEdge k, ?_, ?_⟩⟩
  · rw [hexec, filtered_kept h]
    rfl
  · rw [hexec, filtered_beyond h]
  · rw [hexec, filtered_changed h hdrop]
  have haccepts : s.acceptsEdge k = true ↔ matching ∧ s.time.frozen = false := s.acceptsEdge_iff k
  have harmed : armed = s.edgeTaken k := by
    unfold armed State.edgeTaken
    exact ite_congr (propext haccepts.symm) (fun _ => rfl) fun _ => rfl
  rw [harmed]
  have hlist := hlists.dueList_takeEdge (k := k)
  refine ⟨?_, fun e he => ?_, fun e a he ha => (hlists.armed_takeEdge he ha).2, fun j hj => ?_, ?_,
    fun e he => State.entry_takeEdge_of_not_taken he, fun e a he ha => (hlists.armed_takeEdge he ha).1, fun e => ?_,
    fun e f hsub hkey => ?_, fun hsorted x hx e he hkey => ?_⟩
  · rw [State.takeEdge_eq]
    exact State.armAll_frame _ _ _
  · rw [State.takeEdge_eq]
    exact State.armedPast_armAll_of_not_mem he
  · rw [hlists.triggers_takeEdge, if_neg hj]
  · rw [hlists.triggers_takeEdge, if_pos rfl, State.edged]
    by_cases ha : s.acceptsEdge k = true
    · rw [if_pos ha, if_pos (haccepts.1 ha), ← saturate8_eq]
      rfl
    · have hnone : s.edgeTaken k = [] := if_neg ha
      rw [if_neg ha, if_neg fun h => ha (haccepts.2 h), hnone]
      rfl
  · rw [hlist]
    exact mem_insertAll
  · rw [hlist]
    exact insertAll_order hsub hkey
  · rw [hlist]
    have hne : ∀ y ∈ s.dueList, (s.takeEdge k).keyOf y = s.keyOf y := fun y hy =>
      State.keyOf_congr
        (State.dueOf_congr (State.entry_takeEdge_of_not_taken fun hmem => hlists.edgeTaken_not_due hmem hy))
        (by rw [State.takeEdge_eq, State.armAll_time]; rfl)
    have hsorted : s.dueList.Pairwise fun x y => (s.takeEdge k).keyOf x ≤ (s.takeEdge k).keyOf y :=
      List.Pairwise.imp_of_mem (fun ha hb hab => by rwa [hne _ ha, hne _ hb]) hsorted
    exact pair_sublist_insertAll (mem_takeWhile_of_sorted hsorted hx (Int.le_of_eq hkey)) he

/-- Settles O37: the two trigger commands, check after check. -/
theorem triggerCommands : Obligations.TriggerCommands := by
  intro c s b rest hbody
  refine ⟨fun hb => ⟨fun ht hl => ?_, fun ht hl => ?_⟩, fun k hb => ?_⟩
  · obtain ⟨x, m, rfl⟩ := exists_pair_of_length hl
    have hread : readTriggerConfigBody c.body = none := by
      rw [hbody]
      simp only [readTriggerConfigBody, readTriggerNumber_none hb]
    exact exec_range (fun _ => rfl) ht (by rw [hbody]; rfl) rfl hread rfl
  · have hread : readReadTriggerBody c.body = none := by
      rw [hbody, hl]
      exact readTriggerNumber_none hb
    exact exec_range (fun _ => rfl) ht (by rw [hbody, hl]; rfl) rfl hread rfl
  intro r become
  have hnumber := (readTriggerNumber_iff b k).2 hb
  refine ⟨fun ht x m hrest => ?_, fun ht hrest => ?_⟩
  · have hl : c.body.length = 3 := by rw [hbody, hrest]; rfl
    refine ⟨fun hbad => ?_, fun edge mode hx hm => ?_⟩
    · have hread : readTriggerConfigBody c.body = none := by
        rw [hbody, hrest]
        obtain hx | hm := hbad
        · simp only [readTriggerConfigBody, hnumber, readEdge_none hx]
        · cases hedge : readEdge x <;> simp only [readTriggerConfigBody, hnumber, hedge, readSwitch_none hm]
      exact exec_range (fun _ => rfl) ht hl rfl hread rfl
    · have hx : x = edgeByte edge := by
        rw [hx]
        cases edge <;> rfl
      have hm : m = if decide (mode = .all) = true then 1 else 0 := by
        rw [hm]
        cases mode <;> rfl
      have hread : readTriggerConfigBody c.body = some (k, edge, mode) := by
        rw [hbody, hrest]
        simp only [readTriggerConfigBody, hnumber, (readEdge_iff x edge).2 hx, (readSwitch_iff m _).2 hm]
        cases mode <;> rfl
      have hrun := exec_body (i := .triggerConfig c) (fun _ => rfl) ht hl rfl hread rfl
      exact ⟨fun hclaim => refused_of hrun (if_neg hclaim), fun hclaim => ok_of hrun (if_pos hclaim)⟩
  · have hread : readReadTriggerBody c.body = some k := by
      rw [hbody, hrest]
      exact hnumber
    have hrun := exec_body (i := .readTrigger c) (fun _ => rfl) ht (by rw [hbody, hrest]; rfl) rfl hread rfl
    obtain ⟨hcapture, hlevel, hzero⟩ := (two_flags_iff _ r.capture.isSome r.level).1 rfl
    refine ⟨_, ok_of hrun ?_, hcapture, hlevel, hzero⟩
    have hstate : (if s.lines.triggerClaims.get k = some c.src.port then
        (during s c).setTrigger k { r with count := 0 } else during s c) =
          become { r with count := if s.lines.triggerClaims.get k = some c.src.port then 0 else r.count } := by
      split
      · rfl
      · have hsame : s.triggers.set k.val r k.isLt = s.triggers := by
          refine vector_ext fun j => ?_
          by_cases hj : j = k
          · rw [hj, get_set_self]
          · rw [get_set_ne _ _ _ _ hj]
        show during s c = { during s c with triggers := s.triggers.set k.val r k.isLt }
        rw [hsame]
        rfl
    rw [hb, ← hstate]
    rfl

/-- Settles O38: TAKE and NOTICE_CONFIG, and the assertion of NOTICE0. -/
theorem noticeCommands : Obligations.NoticeCommands := by
  intro c s p n
  refine ⟨NoticeUnit.notice0_eq n, fun b ht hbody => ⟨fun hb => ?_, fun h1 h3 => ?_⟩, fun x y ht hbody =>
    ⟨fun hbad => ?_, fun hx hy => ?_⟩⟩
  · have hread : readTakeBody c.body = none := by rw [hbody, readTakeBody_out hb]
    exact exec_range (fun _ => rfl) ht (by rw [hbody]; rfl) rfl hread rfl
  · intro items keeps
    have hread : readTakeBody c.body = some b.toNat := by rw [hbody, readTakeBody_in h1 h3]
    have hrun := exec_run (i := .takeNotices c) (fun _ => rfl) ht (by rw [hbody]; rfl) rfl
    rw [runTake_eq hread] at hrun
    obtain ⟨hown, hother⟩ := s.queues_taken p b.toNat
    refine ⟨s.taken p b.toNat, hrun, s.taken_frame p _, hown, hother, fun hport => ?_, fun hport hitems => ?_,
      fun hport hnone hconsumes => ?_⟩
    · rw [hport, s.marker_taken_spi]
    · rw [hport] at hitems ⊢
      rw [s.marker_taken_link, if_neg (by simpa using hitems)]
    · have hkeeps : s.takeKeeps p = false := hconsumes
      rw [hport] at hnone hkeeps ⊢
      rw [s.marker_taken_link, hnone, hkeeps]
      rfl
  · have hread : readNoticeConfigBody c.body = none := by
      rw [hbody]
      obtain hx | hy := hbad
      · simp only [readNoticeConfigBody, readSwitch_none hx]
      · cases hswitch : readSwitch x <;> simp only [readNoticeConfigBody, hswitch, readSwitch_none hy]
    exact exec_range (fun _ => rfl) ht (by rw [hbody]; rfl) rfl hread rfl
  · have hread : readNoticeConfigBody c.body = some (decide (x = 1), decide (y = 1)) := by
      rw [hbody]
      simp only [readNoticeConfigBody, readSwitch_of_le hx, readSwitch_of_le hy]
    have hrun := exec_body (i := .noticeConfig c) (fun _ => rfl) ht (by rw [hbody]; rfl) rfl hread rfl
    refine ⟨n.configure p (decide (x = 1)) (decide (y = 1)), ok_of hrun rfl, rfl, PerPort.get_set_self _ _ _,
      PerPort.get_set_self _ _ _, PerPort.get_set_other _ _ _, PerPort.get_set_other _ _ _, fun hport => ?_,
      fun hport h0 => ?_, fun hport h1 => ?_⟩
    · rw [hport]
      rfl
    · rw [hport, h0]
      rfl
    · rw [hport, h1]
      rfl

end Sys2Proof.Proofs
end

section
/-!
PROOFS. The time base (R105 to R124): its events, and its commands.
-/
namespace Sys2Proof.Machine

/-! ### Cycles and ticks (R117, R118, R123) -/

theorem TimeBase.advancing_iff (t : TimeBase) :
    t.advancing = true ↔ t.frozen = false ∧ t.changeover = none ∧ t.hold = false := by
  simp only [TimeBase.advancing, Bool.and_eq_true, Bool.not_eq_true', Option.isNone_iff_eq_none, and_assoc]

section
variable {s : State} {n : Nat}

theorem State.cycles_held (h : s.time.advancing = false) : s.cycles n = s := by
  rw [State.cycles, h, Bool.and_false]
  rfl

theorem State.cycles_advancing (hr : s.phase = .running) (h : s.time.advancing = true) :
    s.cycles n =
      if s.time.prescaler + n < s.time.tickCycles then
        { s with time := { s.time with prescaler := s.time.prescaler + n } }
      else if s.time.prescaler + n = s.time.tickCycles ∧ s.firesFirst = false then { s with time := s.time.ticked }
      else s := by
  have hrunning : s.running = true := by simp [State.running, hr]
  rw [State.cycles, hrunning, h]
  rfl

theorem State.firesFirst_eq_false (s : State) :
    s.firesFirst = false ↔ ∀ e ∈ s.dueList, s.waited e < 65535 ∧ s.keyOf e ≠ Config.mostPast := by
  rw [Bool.eq_false_iff, ne_eq, State.firesFirst_iff]
  simp only [not_exists, not_and, not_or, Nat.not_le]

end

/-! ### Lock events (R106 to R113) -/

theorem TimeBase.canGain_iff (t : TimeBase) (fRef : Nat) :
    t.canGain fRef = true ↔
      (t.synth = .acquiring ∨ t.synth = .unlocked) ∧
        t.l.toNat * 6000000 ≤ fRef * t.multiplier ∧ fRef * t.multiplier ≤ t.l.toNat * 12000000 ∧
          fRef * t.multiplier ≤ 100000000 := by
  simp only [TimeBase.canGain, TimeBase.inBand, Bool.and_eq_true, Bool.or_eq_true, beq_iff_eq, decide_eq_true_eq, and_assoc]

/-- With REF selected, lock lost abandons a changeover to SYNTH and no other (R112). -/
theorem TimeBase.lose_ref {t : TimeBase} (h : t.source = .ref) :
    ∃ c, t.lose = ({ t with synth := .unlocked, changeover := c }, { lockLost := true }) ∧
      (∀ k, t.changeover = some ⟨.synth, k⟩ → c = none) ∧
      ((∀ k, t.changeover ≠ some ⟨.synth, k⟩) → c = t.changeover) := by
  have hkept : (∀ k, t.changeover ≠ some ⟨.synth, k⟩) →
      t.lose = ({ t with synth := .unlocked, changeover := t.changeover }, { lockLost := true }) := by
    intro hnot
    cases hc : t.changeover with
    | none => simp only [TimeBase.lose, h, hc]
    | some x =>
      obtain ⟨target, kind⟩ := x
      cases target with
      | ref => simp only [TimeBase.lose, h, hc]
      | synth => exact absurd hc (hnot kind)
  by_cases hc : ∃ k, t.changeover = some ⟨.synth, k⟩
  · obtain ⟨k, hk⟩ := hc
    refine ⟨none, ?_, fun _ _ => rfl, fun hnot => absurd hk (hnot k)⟩
    simp only [TimeBase.lose, h, hk]
  · rw [not_exists] at hc
    exact ⟨t.changeover, hkept hc, fun k hk => absurd hk (hc k), fun _ => rfl⟩

theorem TimeBase.lose_changing {t : TimeBase} (h : t.source = .synth) (hc : t.changeover ≠ none) :
    t.lose = ({ t with synth := .unlocked }, { lockLost := true }) := by
  obtain ⟨x, hx⟩ := Option.ne_none_iff_exists'.1 hc
  simp only [TimeBase.lose, h, hx]

/-- A changeover that can complete: to REF, or to SYNTH in LOCKED (R109). -/
theorem TimeBase.completing_some {t : TimeBase} {target : ClockSource} {kind : ChangeoverKind}
    (h : t.changeover = some ⟨target, kind⟩) (ht : target = .ref ∨ t.synth = .locked) : t.completing = some target := by
  unfold TimeBase.completing
  cases target with
  | ref => simp only [h]
  | synth =>
    simp only [h]
    exact if_pos (ht.resolve_left nofun)

theorem TimeBase.completing_none {t : TimeBase}
    (h : t.changeover = none ∨ (∃ kind, t.changeover = some ⟨.synth, kind⟩ ∧ t.synth ≠ .locked)) : t.completing = none := by
  unfold TimeBase.completing
  obtain h | ⟨kind, h, hl⟩ := h
  · simp only [h]
  · simp only [h]
    exact if_neg hl

/-! ### The TIMEBASE notice (R93) -/

theorem NoticeItem.againTime_of_not {i : NoticeItem} (h : i.isTimebase = false) (flags : TimeFlags) :
    NoticeItem.againTime flags i = i := by
  cases i with
  | entry e r => rfl
  | timebase n f => cases h

theorem map_againTime_of_not {q : List NoticeItem} (h : ∀ i ∈ q, i.isTimebase = false) (flags : TimeFlags) :
    q.map (NoticeItem.againTime flags) = q := by
  conv => rhs; rw [← List.map_id q]
  exact List.map_congr_left fun i hi => NoticeItem.againTime_of_not (h i hi) flags

theorem postTimebase_split {before after : List NoticeItem} {n : BitVec 16} {f : TimeFlags}
    (h : ∀ i ∈ before ++ after, i.isTimebase = false) (flags : TimeFlags) :
    postTimebase (before ++ .timebase n f :: after) flags =
      before ++ .timebase (saturate16 n) (f.union flags) :: after := by
  have hany : (before ++ .timebase n f :: after).any NoticeItem.isTimebase = true := by simp [NoticeItem.isTimebase]
  have hbefore := map_againTime_of_not (fun i hi => h i (List.mem_append_left _ hi)) flags
  have hafter := map_againTime_of_not (fun i hi => h i (List.mem_append_right _ hi)) flags
  rw [postTimebase_of_any hany, List.map_append, List.map_cons, hbefore, hafter, NoticeItem.againTime]

/-! ### The commands (R114 to R122) -/

theorem pendingByte_bits (k : Option (BitVec 4)) :
    (pendingByte k).extractLsb' 0 4 = k.getD 0 ∧ (pendingByte k).extractLsb' 4 3 = 0 ∧
      (pendingByte k).getLsbD 7 = k.isSome := by
  have hsome : ∀ k : BitVec 4, (k.setWidth 8 ||| 0x80 : Byte).extractLsb' 0 4 = k ∧
      (k.setWidth 8 ||| 0x80 : Byte).extractLsb' 4 3 = 0 ∧ (k.setWidth 8 ||| 0x80 : Byte).getLsbD 7 = true := by decide
  cases k with
  | none => decide
  | some k => exact hsome k

theorem freezeByte_bits (pin command frozen : Bool) :
    let f := bitAt pin 0 ||| bitAt command 1 ||| bitAt frozen 2
    f.getLsbD 0 = pin ∧ f.getLsbD 1 = command ∧ f.getLsbD 2 = frozen ∧ f.extractLsb' 3 5 = 0 := by
  cases pin <;> cases command <;> cases frozen <;> decide

theorem readSelectBody_eq {b : Byte} {source : ClockSource} (h : b = if source = .ref then 0 else 1) :
    readSelectBody [b] = some source := by
  cases source <;> rw [h] <;> rfl

theorem readSelectBody_none {b : Byte} (h : 1 < b.toNat) : readSelectBody [b] = none := by
  rw [readSelectBody, readSwitch_none h]
  rfl

theorem readPrescaleBody_in {b : Byte} (h : b.toNat ≤ 15) : readPrescaleBody [b] = some (b.setWidth 4) :=
  if_pos (Nat.lt_succ_of_le h)

theorem readPrescaleBody_out {b : Byte} (h : 15 < b.toNat) : readPrescaleBody [b] = none := if_neg (Nat.not_lt.2 h)

theorem State.entry_setTime (s : State) (w : Word) (e : EntryId) :
    (s.setTime w).entry e = (s.entry e).map fun a => a.shift (w - s.time.count) := get_map _ _ _

theorem Entry.shift_eq (a : Entry) (w : Word) :
    a.shift w = { a with state :=
      match a.state with
      | .armed due => .armed (due + w)
      | .idle => .idle
      | .parked => .parked
      | .held remaining => .held remaining } := by
  obtain ⟨owner, state⟩ := a
  cases state <;> rfl

end Sys2Proof.Machine

namespace Sys2Proof.Proofs
open Sys2Proof.Machine

/-- Settles O39: the cycles of a tick, one after the other condition. -/
theorem tick : Obligations.Tick := by
  intro s n hphase k
  refine ⟨fun hheld => ?_, fun hfrozen hchange hhold => ?_⟩
  · have hnot : s.time.advancing = false := Bool.eq_false_iff.2 fun h => by
      obtain ⟨hfrozen, hchange, hhold⟩ := (TimeBase.advancing_iff _).1 h
      obtain h | h | h := hheld
      · exact absurd (h.symm.trans hfrozen) (by decide)
      · exact h hchange
      · exact absurd (h.symm.trans hhold) (by decide)
    exact congrArg _ (State.cycles_held hnot)
  have hcycles := State.cycles_advancing (n := n) hphase ((TimeBase.advancing_iff _).2 ⟨hfrozen, hchange, hhold⟩)
  have hexec : exec (.tick n) s = .next (s.cycles n) := rfl
  rw [hexec, hcycles]
  refine ⟨fun hless => ?_, fun heq hwait => ?_, fun heq hwait => ?_, fun hmore => ?_⟩
  · rw [if_pos (show s.time.prescaler + n < s.time.tickCycles from hless)]
  · have hnot : ¬ s.time.prescaler + n < s.time.tickCycles := Nat.not_lt.2 (Nat.le_of_eq heq.symm)
    rw [if_neg hnot, if_pos ⟨heq, (s.firesFirst_eq_false).2 hwait⟩]
    rfl
  · have hnot : ¬ s.time.prescaler + n < s.time.tickCycles := Nat.not_lt.2 (Nat.le_of_eq heq.symm)
    have hfirst := (State.firesFirst_iff s).2 hwait
    rw [if_neg hnot, if_neg fun h => absurd (hfirst.symm.trans h.2) (by decide)]
  · have hnot : ¬ s.time.prescaler + n < s.time.tickCycles := Nat.not_lt.2 (Nat.le_of_lt hmore)
    rw [if_neg hnot, if_neg fun h => absurd h.1 (Nat.ne_of_gt hmore)]

/-- Settles O40: the two lock events, and what a loss of lock does to the source. -/
theorem lockEvents : Obligations.LockEvents := by
  intro s fRef hphase t product band
  have hrunning : s.running = true := by simp [State.running, hphase]
  have hgain : t.canGain fRef = true ↔ (t.synth = .acquiring ∨ t.synth = .unlocked) ∧ band := t.canGain_iff fRef
  have hlost : t.synth = .locked → exec .lockLost s = .next ({ s with time := t.lose.1 }.postTime t.lose.2) := by
    intro hlocked
    refine if_pos ?_
    rw [hrunning, show s.time.synth = .locked from hlocked]
    rfl
  refine ⟨fun hnot => if_neg ?_, fun hsynth hband => if_pos ?_, fun hnot => if_neg ?_, fun hlocked => ?_⟩
  · rw [Bool.and_eq_true]
    exact fun h => hnot (hgain.1 h.2)
  · rw [Bool.and_eq_true]
    exact ⟨hrunning, hgain.2 ⟨hsynth, hband⟩⟩
  · rw [Bool.and_eq_true, beq_iff_eq]
    exact fun h => hnot h.2
  rw [hlost hlocked]
  refine ⟨fun hsource => ?_, fun hsource hchange => ?_, fun hsource hnone hpolicy => ?_, fun hsource hnone hpolicy => ?_⟩
  · obtain ⟨c, hlose, hrest⟩ := TimeBase.lose_ref hsource
    exact ⟨c, by rw [hlose], hrest⟩
  · rw [TimeBase.lose_changing hsource hchange]
  · simp only [TimeBase.lose, hsource, hnone, hpolicy]
  · simp only [TimeBase.lose, hsource, hnone, hpolicy]

/-- Settles O41: the completion of a changeover, the FREEZE pin's filter, and the TIMEBASE posting. -/
theorem changeoverFreezePin : Obligations.ChangeoverFreezePin := by
  intro s samples hphase
  have hrunning : s.running = true := by simp [State.running, hphase]
  have hcomplete : exec .changeoverComplete s =
      match s.time.completing with
      | some target =>
        .next ({ s with time := s.time.complete target }.postTime { changedOver := true, holdEnded := s.time.hold })
      | none => .next s := if_pos hrunning
  have hpin : exec (.freezePinChange samples) s =
      match filtered s.time.freezePin s.time.freezeSample samples with
      | .kept b => .next { s with time := { s.time with freezeSample := b } }
      | .changed =>
        .next { s with time := { s.time with freezePin := !s.time.freezePin, freezeSample := !s.time.freezePin } }
      | .beyond => .next s := if_pos hrunning
  refine ⟨fun target kind hchange htarget => ?_, fun hnone => ?_, ?_, fun flags => ⟨_, rfl, fun hnone => ?_,
    fun before after n f hq hothers => ?_⟩⟩
  · rw [hcomplete, TimeBase.completing_some hchange htarget]
    rfl
  · rw [hcomplete, TimeBase.completing_none hnone]
  · intro seen change
    rw [hpin]
    refine ⟨fun h => ?_, fun h => ?_, fun h hdrop => ?_⟩
    · rw [filtered_kept h]
    · rw [filtered_beyond h]
    · rw [filtered_changed h hdrop]
  · exact postTimebase_of_not_any (List.any_eq_false.2 fun i hi => by simp [hnone i hi]) flags
  · show postTimebase s.notices.queues.spi flags = _
    rw [hq, postTimebase_split hothers, saturate16_eq]

/-- Settles O42: the READ_TIME record bit by bit, and the shift of SET_TIME. -/
theorem readSetTime : Obligations.ReadSetTime := by
  intro c s
  refine ⟨fun ht hbody => ?_, fun w ht hsrc hbody => ?_⟩
  · have hrun := exec_run (i := .readTime c) (fun _ => rfl) ht (by rw [hbody]; rfl) rfl
    obtain ⟨hsource, hsynth, hchange, hhold, hfive, hsix, hseven⟩ :=
      summary_bits (decide (s.time.source = .synth)) s.time.synth s.time.changeover.isSome s.time.hold s.time.towardSynth
        s.time.fallingBack
    obtain ⟨hp, hpzero, hpsome⟩ := pendingByte_bits s.time.pendingExponent
    obtain ⟨hpin, hcommand, hfrozen, hfzero⟩ := freezeByte_bits s.time.freezePin s.time.freezeCommand s.time.frozen
    refine ⟨_, _, _, ok_of hrun rfl, hsource, hsynth, hchange, hhold, fun x hx => ⟨hfive.trans ?_, hsix.trans ?_⟩,
      fun hnone => ?_, hseven, hp, hpzero, hpsome, hpin, hcommand, hfrozen, hfzero⟩
    · rw [TimeBase.towardSynth, hx]
      exact Bool.beq_eq_decide_eq _ _
    · rw [TimeBase.fallingBack, hx]
      exact Bool.beq_eq_decide_eq _ _
    · have htoward : s.time.towardSynth = false := by rw [TimeBase.towardSynth, hnone]
      have hfalling : s.time.fallingBack = false := by rw [TimeBase.fallingBack, hnone]
      refine (extractLsb'_eq_zero_iff _ 5 2).2 fun i hi => ?_
      obtain rfl | rfl : i = 0 ∨ i = 1 := by omega
      · exact hfive.trans htoward
      · exact hsix.trans hfalling
  · have hread : readTimeBody c.body = some w := by rw [hbody, bytes32, readTimeBody, le32_bytes32]
    have hp : Permit.admits .spiOnly c.src.port = true := by rw [hsrc]; rfl
    have hrun := exec_body (i := .setTime c) (fun _ => rfl) ht (by rw [hbody]; rfl) hp hread rfl
    refine ⟨(during s c).setTime w, ok_of hrun rfl, rfl, fun e => ?_, fun k => get_map _ _ _,
      fun e => State.keyOf_setTime (during s c) w e⟩
    rw [State.entry_setTime]
    exact congrArg (Option.map · (s.entry e)) (funext fun a => a.shift_eq _)

/-- Settles O43: the synthesizer's commands. -/
theorem synthCommands : Obligations.SynthCommands := by
  intro c s hsrc t
  have hp : Permit.admits .spiOnly c.src.port = true := by rw [hsrc]; rfl
  refine ⟨fun w ht hbody => ?_, fun ht hl hbody => ?_, fun ht hbody => ?_, fun ht hbody => ?_⟩
  · have hread := (readSynthSetBody_iff _ _).2 hbody
    have hrun := exec_body (i := .synthSet c) (fun _ => rfl) ht (by rw [hbody]; rfl) hp hread rfl
    refine ⟨fun hnl hsynth => refused_of hrun (if_pos ⟨Option.isSome_iff_ne_none.2 hnl, hsynth⟩), fun hfree =>
      ok_of hrun (if_neg fun ⟨hnl, hsynth⟩ => ?_)⟩
    exact hfree.elim (Option.isSome_iff_ne_none.1 hnl) hsynth
  · have hread : readSynthSetBody c.body = none := read_none fun w h => hbody w ((readSynthSetBody_iff _ _).1 h)
    exact exec_range (fun _ => rfl) ht hl hp hread rfl
  · have hrun := exec_run (i := .synthOn c) (fun _ => rfl) ht (by rw [hbody]; rfl) hp
    exact ⟨fun hoff hl => refused_of hrun ((if_pos hoff).trans (if_pos hl)),
      fun hoff hl => ok_of hrun ((if_pos hoff).trans (if_neg hl)), fun hon => ok_of hrun (if_neg hon)⟩
  · intro bound
    have hrun := exec_run (i := .synthOff c) (fun _ => rfl) ht (by rw [hbody]; rfl) hp
    have hbound : (t.source = .synth ∨ t.towardSynth = true) ↔ bound := or_congr_right t.towardSynth_iff
    exact ⟨fun hb => refused_of hrun (if_pos (hbound.2 hb)), fun hb => ok_of hrun (if_neg fun h => hb (hbound.1 h))⟩

/-- Settles O44: SELECT's checks in order, PRESCALE and FREEZE. -/
theorem selectPrescaleFreeze : Obligations.SelectPrescaleFreeze := by
  intro c s b hsrc hbody t
  have hp : Permit.admits .spiOnly c.src.port = true := by rw [hsrc]; rfl
  have hl : c.body.length = 1 := by rw [hbody]; rfl
  refine ⟨fun ht => ⟨fun hb => ?_, fun source hb => ?_⟩, fun ht => ⟨fun hb => ?_, fun hb => ?_⟩, fun ht =>
    ⟨fun hb => ?_, fun hb => ?_⟩⟩
  · have hread : readSelectBody c.body = none := by rw [hbody, readSelectBody_none hb]
    exact exec_range (fun _ => rfl) ht hl hp hread rfl
  · have hread : readSelectBody c.body = some source := by rw [hbody, readSelectBody_eq hb]
    have hrun := exec_body (i := .selectSource c) (fun _ => rfl) ht hl hp hread rfl
    refine ⟨fun hbusy => refused_of hrun (if_pos (Option.isSome_iff_ne_none.2 hbusy)), fun hnone hsame => ?_,
      fun hnone hother => ?_⟩
    all_goals have hfree : ¬ t.changeover.isSome = true := by rw [hnone]; exact Bool.false_ne_true
    · exact ok_of hrun ((if_neg hfree).trans (if_pos hsame))
    · refine ⟨fun hsynth hlocked => refused_of hrun (((if_neg hfree).trans (if_neg hother)).trans (if_pos ⟨hsynth, hlocked⟩)),
        fun hready => ok_of hrun (((if_neg hfree).trans (if_neg hother)).trans (if_neg fun ⟨hsynth, hlocked⟩ => ?_))⟩
      obtain href | hl := hready
      · rw [href] at hsynth
        cases hsynth
      · exact hlocked hl
  · have hread : readPrescaleBody c.body = none := by rw [hbody, readPrescaleBody_out hb]
    exact exec_range (fun _ => rfl) ht hl hp hread rfl
  · intro advancing
    have hread : readPrescaleBody c.body = some (b.setWidth 4) := by rw [hbody, readPrescaleBody_in hb]
    have hrun := exec_body (i := .prescale c) (fun _ => rfl) ht hl hp hread rfl
    have hadvancing : t.advancing = true ↔ advancing := t.advancing_iff
    exact ⟨fun h => ok_of hrun (congrArg (fun x => Answer.ok [] { during s c with time := x }) (if_pos (hadvancing.2 h))),
      fun h => ok_of hrun (congrArg (fun x => Answer.ok [] { during s c with time := x })
        (if_neg fun hx => h (hadvancing.1 hx)))⟩
  · have hread : readFreezeBody c.body = none := by
      rw [hbody]
      exact readSwitch_none hb
    exact exec_range (fun _ => rfl) ht hl hp hread rfl
  · have hread : readFreezeBody c.body = some (decide (b = 1)) := by
      rw [hbody]
      exact readSwitch_of_le hb
    exact ok_of (exec_body (i := .freeze c) (fun _ => rfl) ht hl hp hread rfl) rfl

end Sys2Proof.Proofs
end

section
/-!
PROOFS. The SPI port (R146 to R159): the fall and the rise of SEL, the judgement of each kind, and the bits on SDO.
-/
namespace Sys2Proof.Machine

/-! ### The kind byte (R148) -/

theorem kindOf_command (kind : Byte) : kindOf kind = .command ↔ kind = 0xA5 := by
  unfold kindOf Config.kindCommand Config.kindFetch Config.kindPoll
  constructor
  · intro h
    refine Classical.byContradiction fun hne => ?_
    rw [if_neg hne] at h
    repeat' split at h
    all_goals cases h
  · rintro rfl
    rfl

theorem kindOf_poll (kind : Byte) : kindOf kind = .poll ↔ kind = 0x3C := by
  unfold kindOf Config.kindCommand Config.kindFetch Config.kindPoll
  constructor
  · intro h
    refine Classical.byContradiction fun hne => ?_
    rw [if_neg hne] at h
    repeat' split at h
    all_goals cases h
  · rintro rfl
    rfl

theorem kindOf_unknown (kind : Byte) : kindOf kind = .unknown ↔ kind ≠ 0xA5 ∧ kind ≠ 0x5A ∧ kind ≠ 0x3C := by
  constructor
  · intro h
    refine ⟨?_, ?_, ?_⟩ <;> rintro rfl <;> cases h
  · rintro ⟨hc, hf, hp⟩
    exact (if_neg hc).trans ((if_neg hf).trans (if_neg hp))

/-- The status byte, bit by bit (Table 10.4). -/
theorem statusByte_bits (command response notice reset : Bool) (result : SpiResult) :
    let b := bitAt command 7 ||| bitAt response 6 ||| bitAt notice 5 ||| bitAt reset 4 ||| spiResultByte result
    b.getLsbD 7 = command ∧ b.getLsbD 6 = response ∧ b.getLsbD 5 = notice ∧ b.getLsbD 4 = reset ∧ b.getLsbD 3 = false ∧
      b.extractLsb' 0 3 = (spiResultByte result).setWidth 3 := by
  cases result <;> decide +revert

/-! ### The end of a transaction -/

section
variable {s : State} {p : SpiPort} {x : Transaction} {sdi rest : List Bool} {kind : Byte}

/-- The port after the rise of SEL (R146). -/
def SpiPort.closed (p : SpiPort) (out : List Bool) : SpiPort :=
  { selLow := false, transaction := none, cut := none, buffer := [], bufferCount := 0, lastResult := p.lastResult, sdo := out }

theorem SpiPort.setKind_close (p : SpiPort) (k : SpiKind) (sdi : List Bool) : (p.setKind k).close sdi = p.close sdi := by
  have hout : (p.setKind k).outBits sdi = p.outBits sdi := by
    cases h : p.transaction <;> simp [SpiPort.setKind, SpiPort.outBits, h, Transaction.outBits]
  rw [SpiPort.close, hout]
  rfl

theorem SpiPort.close_receive (p : SpiPort) (bytes : List Byte) (sdi : List Bool) :
    (p.receive bytes).close sdi = p.close sdi := rfl

theorem SpiPort.close_open (h : p.transaction = some x) (kind : Byte) (rest : List Bool) :
    p.close (spiBits kind ++ rest) = p.closed (spiBits x.status ++ padded (x.dataBits kind) rest.length) := by
  have hout : p.outBits (spiBits kind ++ rest) = x.outBits (kindAfter (spiBits kind ++ rest)) := by
    simp only [SpiPort.outBits, h]
  rw [SpiPort.close, hout, x.padded_outBits]
  rfl

theorem SpiPort.close_short (h : p.transaction = some x) (hs : sdi.length < 8) :
    p.close sdi = p.closed ((spiBits x.status).take sdi.length) := by
  have hout : p.outBits sdi = x.outBits (kindAfter sdi) := by simp only [SpiPort.outBits, h]
  rw [SpiPort.close, hout, x.padded_outBits_short _ (Nat.le_of_lt hs)]
  rfl

theorem SpiPort.close_cut_bits {bits : List Bool} (h : p.transaction = none) (hcut : p.cut = some bits) :
    p.close sdi = p.closed (bits.take sdi.length ++ List.replicate (sdi.length - bits.length) false) := by
  have hout : p.outBits sdi = bits := by
    simp only [SpiPort.outBits, h, hcut]
    rfl
  rw [SpiPort.close, hout]
  rfl

theorem padded_nil (n : Nat) : padded [] n = List.replicate n false := by simp [padded]

theorem Transaction.dataBits_of_ne (x : Transaction) (h : kind ≠ 0x5A) : x.dataBits kind = [] := if_neg h

theorem Transaction.dataBits_of_empty (h : x.copy = none) : x.dataBits kind = [] := by
  unfold Transaction.dataBits
  rw [h]
  split <;> rfl

theorem Transaction.dataBits_fetch {r : Response} (h : x.copy = some r) :
    x.dataBits 0x5A = (responseBytes r).flatMap spiBits := by
  rw [Transaction.dataBits, if_pos rfl, h]
  rfl

/-- Of a kind that is no FETCH, zeros follow the status byte (R149). -/
theorem SpiPort.close_zeros (h : p.transaction = some x) (hk : kind ≠ 0x5A) (rest : List Bool) :
    p.close (spiBits kind ++ rest) = p.closed (spiBits x.status ++ List.replicate rest.length false) := by
  rw [SpiPort.close_open h, x.dataBits_of_ne hk, padded_nil]

/-- A row of a kind that the kind byte does not name does not arise (R148). -/
theorem State.riseAs_named {k : SpiKind} (judge : Transaction → State) (h : s.spi.transaction = some x)
    (hk : kindOf kind ≠ k) : s.riseAs (some k) (spiBits kind ++ rest) judge = s :=
  State.riseAs_other judge h (by rw [kindAfter_spiBits]; exact fun heq => hk (Option.some.inj heq))

theorem State.riseAs_kind {k : SpiKind} (judge : Transaction → State) (h : s.spi.transaction = some x)
    (hk : kindOf kind = k) : s.riseAs (some k) (spiBits kind ++ rest) judge = judge x :=
  State.riseAs_open judge h (by rw [kindAfter_spiBits, hk])

theorem State.riseAs_short {k : SpiKind} (judge : Transaction → State) (h : s.spi.transaction = some x)
    (hs : sdi.length < 8) : s.riseAs (some k) sdi judge = s :=
  State.riseAs_other judge h (by rw [kindAfter_short sdi hs]; nofun)

end

/-! ### The bits on SDO (R146, R147) -/

section
variable {s : State} {x : Transaction} {sdi : List Bool} {sckHigh : Bool}

theorem spiBits_getD (b : Byte) {n : Nat} (h : n < 8) : (spiBits b).getD n false = b.getLsbD (7 - n) := by
  obtain rfl | rfl | rfl | rfl | rfl | rfl | rfl | rfl :
    n = 0 ∨ n = 1 ∨ n = 2 ∨ n = 3 ∨ n = 4 ∨ n = 5 ∨ n = 6 ∨ n = 7 := by omega
  all_goals rfl

theorem getD_append_of_lt {α : Type} {l : List α} {n : Nat} (h : n < l.length) (r : List α) (d : α) :
    (l ++ r).getD n d = l.getD n d := by
  rw [List.getD_eq_getElem?_getD, List.getD_eq_getElem?_getD, List.getElem?_append_left h]

theorem getD_append_of_le {α : Type} {l : List α} {n : Nat} (h : l.length ≤ n) (r : List α) (d : α) :
    (l ++ r).getD n d = r.getD (n - l.length) d := by
  rw [List.getD_eq_getElem?_getD, List.getD_eq_getElem?_getD, List.getElem?_append_right h]

theorem spiBits_append_getD_low (b : Byte) (bits : List Bool) {n : Nat} (h : n < 8) :
    (spiBits b ++ bits).getD n false = b.getLsbD (7 - n) := by
  rw [getD_append_of_lt (by rwa [length_spiBits]), spiBits_getD b h]

theorem spiBits_append_getD_high (b : Byte) (bits : List Bool) {n : Nat} (h : 8 ≤ n) :
    (spiBits b ++ bits).getD n false = bits.getD (n - 8) false := by
  rw [getD_append_of_le (by rwa [length_spiBits]), length_spiBits]

theorem sckFalls_eq (sdi : List Bool) (sckHigh : Bool) :
    sckFalls sdi sckHigh = sdi.length - (if sckHigh then 1 else 0) := by
  cases sckHigh <;> rfl

theorem State.sdoPin_released
    (h : s.phase = .held ∨ s.spi.selLow = false ∨ (s.spi.transaction = none ∧ s.spi.cut = none)) :
    s.sdoPin sdi sckHigh = none := by
  unfold State.sdoPin
  refine if_neg ?_
  obtain h | h | ⟨ht, hc⟩ := h
  · simp [h]
  · simp [h]
  · simp [ht, hc]

theorem State.sdoPin_open (hphase : s.phase ≠ .held) (hsel : s.spi.selLow = true) (h : s.spi.transaction = some x) :
    s.sdoPin sdi sckHigh = some ((x.outBits (kindAfter sdi)).getD (sckFalls sdi sckHigh) false) := by
  unfold State.sdoPin
  rw [if_pos (by simp [hphase, hsel, h])]
  simp only [SpiPort.outBits, h]

theorem State.sdoPin_cut {bits : List Bool} (hphase : s.phase ≠ .held) (hsel : s.spi.selLow = true)
    (h : s.spi.transaction = none) (hcut : s.spi.cut = some bits) :
    s.sdoPin sdi sckHigh = some (bits.getD (sckFalls sdi sckHigh) false) := by
  unfold State.sdoPin
  rw [if_pos (by simp [hphase, hsel, hcut])]
  simp only [SpiPort.outBits, h, hcut, Option.getD_some]

end

/-! ### The bytes on SDI (R146, R151) -/

theorem spiBytes_flatMap (bytes : List Byte) {part : List Bool} (h : part.length < 8) :
    spiBytes (bytes.flatMap spiBits ++ part) = bytes := by
  induction bytes with
  | nil => exact spiBytes_short part h
  | cons b bytes ih => rw [List.flatMap_cons, List.append_assoc, spiBytes_spiBits_append, ih]

theorem length_flatMap_spiBits (bytes : List Byte) : (bytes.flatMap spiBits).length = 8 * bytes.length := by
  induction bytes with
  | nil => rfl
  | cons b bytes ih =>
    rw [List.flatMap_cons, List.length_append, ih, length_spiBits, List.length_cons]
    omega

theorem length_spiBytes (bits : List Bool) : (spiBytes bits).length = bits.length / 8 := by
  induction bits using spiBytes.induct with
  | case1 b7 b6 b5 b4 b3 b2 b1 b0 rest ih =>
    rw [spiBytes, List.length_cons, ih]
    simp only [List.length_cons]
    omega
  | case2 bits h =>
    have hshort : bits.length < 8 := by
      refine Classical.byContradiction fun hlong => ?_
      match bits, h with
      | b7 :: b6 :: b5 :: b4 :: b3 :: b2 :: b1 :: b0 :: rest, h => exact h _ _ _ _ _ _ _ _ _ rfl
      | [], _ | [_], _ | [_, _], _ | [_, _, _], _ | [_, _, _, _], _ | [_, _, _, _, _], _ | [_, _, _, _, _, _], _
      | [_, _, _, _, _, _, _], _ => simp at hlong
    rw [spiBytes_short bits hshort, Nat.div_eq_of_lt hshort]
    rfl

/-! ### The judgement of a frame (R151) -/

theorem lenOk_iff (len : Byte) : lenOk len = true ↔ 3 ≤ len.toNat ∧ len.toNat ≤ 47 := by
  simp [lenOk]

/-- The frame is complete and of the length its first byte gives, which is in range (R151). -/
def WellSized (bytes : List Byte) (part : List Bool) : Prop :=
  part = [] ∧ ∃ len rest, bytes = len :: rest ∧ 3 ≤ len.toNat ∧ len.toNat ≤ 47 ∧ bytes.length = len.toNat + 1

section
variable {p : SpiPort} {bytes : List Byte} {part : List Bool} {partly occupied : Bool}

theorem judgeCommand_length (hpart : partly = true ↔ part ≠ []) (h : ¬ WellSized bytes part) :
    judgeCommand (p.receive bytes) partly occupied = .length := by
  cases bytes with
  | nil => rfl
  | cons len rest =>
    refine if_pos ?_
    show (partly || !lenOk len || (len :: rest).length != len.toNat + 1) = true
    refine Classical.byContradiction fun hne => ?_
    have hall : (partly = false ∧ lenOk len = true) ∧ (len :: rest).length = len.toNat + 1 := by simpa using hne
    obtain ⟨⟨hp, hlen⟩, hcount⟩ := hall
    obtain ⟨hlow, hhigh⟩ := (lenOk_iff len).1 hlen
    refine h ⟨?_, len, rest, rfl, hlow, hhigh, hcount⟩
    refine Classical.byContradiction fun hnot => ?_
    exact absurd ((hpart.2 hnot).symm.trans hp) (by decide)

/-- A frame of the right size is kept whole (R151). -/
theorem WellSized.take (h : WellSized bytes part) : bytes.take Config.frameBytes = bytes := by
  obtain ⟨-, len, rest, -, -, hhigh, hcount⟩ := h
  refine List.take_of_length_le ?_
  rw [hcount]
  exact Nat.succ_le_succ hhigh

theorem judgeCommand_sized (hpart : partly = true ↔ part ≠ []) (h : WellSized bytes part) :
    judgeCommand (p.receive bytes) partly occupied =
      if !checkOk bytes then .check else if occupied then .busy else .accepted := by
  have hbuffer : (p.receive bytes).buffer = bytes := h.take
  obtain ⟨hnil, len, rest, hbytes, hlow, hhigh, hcount⟩ := h
  have hp : partly = false := Bool.eq_false_iff.2 fun hp => hpart.1 hp hnil
  have hpass : (partly || !lenOk len || (p.receive bytes).bufferCount != len.toNat + 1) = false := by
    show (partly || !lenOk len || bytes.length != len.toNat + 1) = false
    rw [hp, (lenOk_iff len).2 ⟨hlow, hhigh⟩, hcount]
    simp
  unfold judgeCommand
  rw [hbuffer]
  subst hbytes
  dsimp only
  rw [hpass]
  rfl

end

theorem acceptedSlot_of_ne {r : SpiResult} (h : r ≠ .accepted) (buffer : List Byte) (slot : Option CommandFrame) :
    acceptedSlot r buffer slot = slot := if_neg h

theorem checkOk_iff (frame : List Byte) : checkOk frame = true ↔ frame.getLast? = some (crc8 frame.dropLast) := by
  simp [checkOk]

end Sys2Proof.Machine

namespace Sys2Proof.Proofs
open Sys2Proof.Machine

/-- Settles O45: the fall of SEL, the rise of a POLL, of an unknown kind and of none, and the level of SDO. -/
theorem spiTransactions : Obligations.SpiTransactions := by
  intro s sdi closed
  refine ⟨fun hphase hsel => ⟨statusByte s, ?_, statusByte_bits _ _ _ _ _⟩, fun x hx => ⟨fun kind rest hsdi => ?_,
    fun hshort => ?_⟩, fun hnone i hi => ?_, fun sckHigh => ?_⟩
  · have hrunning : s.running = true := by simp [State.running, hphase]
    have hhigh : ¬ s.spi.selLow = true := by simp [hsel]
    exact (if_neg hhigh).trans (if_pos hrunning)
  · subst hsdi
    intro out
    refine ⟨fun hk => ?_, fun hc hf hp => ?_, fun hk => ?_, fun hk => ?_, fun hk => ?_, fun hk => ?_, ?_⟩
    · refine (congrArg Host.Outcome.next (State.riseAs_kind _ hx ((kindOf_poll kind).2 hk))).trans ?_
      rw [SpiPort.setKind_close, SpiPort.close_zeros hx (by rw [hk]; decide)]
      rfl
    · refine (congrArg Host.Outcome.next (State.riseAs_kind _ hx ((kindOf_unknown kind).2 ⟨hc, hf, hp⟩))).trans ?_
      rw [SpiPort.setKind_close, SpiPort.close_zeros hx hf]
      rfl
    · exact congrArg Host.Outcome.next (State.riseAs_named _ hx fun h => hk ((kindOf_command kind).1 h))
    · exact congrArg Host.Outcome.next (State.riseAs_named _ hx fun h => hk ((kindOf_fetch kind).1 h))
    · exact congrArg Host.Outcome.next (State.riseAs_named _ hx fun h => hk ((kindOf_poll kind).1 h))
    · refine congrArg Host.Outcome.next (State.riseAs_named _ hx fun h => ?_)
      obtain ⟨hc, hf, hp⟩ := (kindOf_unknown kind).1 h
      exact hk.elim hc fun hk => hk.elim hf hp
    · exact congrArg Host.Outcome.next (State.riseAs_other _ hx (by rw [kindAfter_spiBits]; nofun))
  · refine ⟨?_, congrArg Host.Outcome.next (State.riseAs_short _ hx hshort),
      congrArg Host.Outcome.next (State.riseAs_short _ hx hshort),
      congrArg Host.Outcome.next (State.riseAs_short _ hx hshort),
      congrArg Host.Outcome.next (State.riseAs_short _ hx hshort)⟩
    refine (congrArg Host.Outcome.next (State.riseAs_open _ hx (kindAfter_short sdi hshort))).trans ?_
    rw [SpiPort.close_short hx hshort]
    rfl
  · have hrise : exec i s = .next (s.riseUnopened sdi) := by
      simp only [List.mem_cons, List.not_mem_nil, or_false] at hi
      obtain rfl | rfl | rfl | rfl | rfl := hi <;> exact congrArg Host.Outcome.next (State.riseAs_unopened _ _ _ hnone)
    rw [hrise]
    refine ⟨fun hcut => ?_, fun bits hcut => ?_⟩
    · exact congrArg Host.Outcome.next (if_neg (by simp [hcut]))
    · refine (congrArg Host.Outcome.next (if_pos (by simp [hcut]))).trans ?_
      rw [SpiPort.close_cut_bits hnone hcut]
      rfl
  · intro fallen
    have hfallen : sckFalls sdi sckHigh = fallen := sckFalls_eq sdi sckHigh
    refine ⟨State.sdoPin_released, fun hphase hsel => ⟨fun x hx => ⟨fun hlow => ?_, fun kind rest hsdi hhigh =>
      ⟨fun hzero => ?_, fun r hk hr => ?_⟩⟩, fun bits hnone hcut => ?_⟩⟩
    · rw [State.sdoPin_open hphase hsel hx, hfallen]
      exact congrArg some (spiBits_append_getD_low _ _ hlow)
    · have hdata : x.dataBits kind = [] := hzero.elim x.dataBits_of_ne Transaction.dataBits_of_empty
      rw [State.sdoPin_open hphase hsel hx, hfallen, hsdi, kindAfter_spiBits, x.outBits_kind,
        spiBits_append_getD_high _ _ hhigh, hdata]
      rfl
    · rw [State.sdoPin_open hphase hsel hx, hfallen, hsdi, kindAfter_spiBits, x.outBits_kind,
        spiBits_append_getD_high _ _ hhigh, hk, Transaction.dataBits_fetch hr]
    · rw [State.sdoPin_cut hphase hsel hnone hcut, hfallen]

/-- Settles O46: the four judgements of a COMMAND, in their order. -/
theorem commandTransaction : Obligations.CommandTransaction := by
  intro s x bytes part hx hpart sdi ends wellSized
  have hsdi : sdi = spiBits 0xA5 ++ (bytes.flatMap spiBits ++ part) := List.append_assoc _ _ _
  have hbytes : dataBytes sdi = bytes := by rw [hsdi, dataBytes_spiBits, spiBytes_flatMap bytes hpart]
  have hpartly : partlyReceived sdi = true ↔ part ≠ [] := by
    have hlen : sdi.length = 8 + (8 * bytes.length + part.length) := by
      rw [hsdi, List.length_append, List.length_append, length_flatMap_spiBits, length_spiBits]
    have hnil : part ≠ [] ↔ part.length ≠ 0 := not_congr List.length_eq_zero_iff.symm
    rw [partlyReceived, bne_iff_ne, hlen, hnil]
    omega
  have hclosed : s.spi.close sdi =
      s.spi.closed (spiBits x.status ++ List.replicate (8 * bytes.length + part.length) false) := by
    rw [hsdi, SpiPort.close_zeros hx (by decide), List.length_append, length_flatMap_spiBits]
  have hends : ∀ r, judgeCommand ((s.spi.setKind .command).receive bytes) (partlyReceived sdi) s.ctl.commands.spi.isSome = r →
      ends r (acceptedSlot r (bytes.take Config.frameBytes) s.ctl.commands.spi) := by
    rintro r rfl
    have hrise : exec (.commandTransaction sdi) s = .next (s.judgeFrame sdi) := by
      refine congrArg Host.Outcome.next ?_
      rw [hsdi]
      exact State.riseAs_kind _ hx rfl
    refine hrise.trans ?_
    rw [State.judgeFrame, hbytes]
    dsimp only
    rw [SpiPort.close_receive, SpiPort.setKind_close, hclosed]
    rfl
  refine ⟨fun hbad => ?_, fun hsized => ?_⟩
  · have h := hends _ (judgeCommand_length hpartly hbad)
    rwa [acceptedSlot_of_ne (by decide)] at h
  have hjudge := judgeCommand_sized (p := s.spi.setKind .command) (occupied := s.ctl.commands.spi.isSome) hpartly hsized
  refine ⟨fun hcheck => ?_, fun hcheck => ?_⟩
  · have hbad : (!checkOk bytes) = true := by
      rw [Bool.eq_false_iff.2 fun h => hcheck ((checkOk_iff bytes).1 h)]
      rfl
    have h := hends _ (hjudge.trans (if_pos hbad))
    rwa [acceptedSlot_of_ne (by decide)] at h
  have hgood : ¬ (!checkOk bytes) = true := by
    rw [(checkOk_iff bytes).2 hcheck]
    exact Bool.false_ne_true
  have hjudge := hjudge.trans (if_neg hgood)
  refine ⟨fun hbusy => ?_, fun hfree len code seq rest hframe => ?_⟩
  · have h := hends _ (hjudge.trans (if_pos (Option.isSome_iff_ne_none.2 hbusy)))
    rwa [acceptedSlot_of_ne (by decide)] at h
  · have h := hends _ (hjudge.trans (if_neg (by rw [hfree]; exact Bool.false_ne_true)))
    have htake : bytes.take Config.frameBytes = bytes := WellSized.take hsized
    rw [htake, acceptedSlot, if_pos rfl, hframe] at h
    exact h

/-- Settles O47: the copied response and zeros, and the judgement by the bytes clocked. -/
theorem fetchTransaction : Obligations.FetchTransaction := by
  intro s x rest hx ends
  have hrise : exec (.fetchTransaction (spiBits 0x5A ++ rest)) s = .next (s.judgeFetch (spiBits 0x5A ++ rest) x) :=
    congrArg Host.Outcome.next (State.riseAs_kind _ hx rfl)
  have hcount : (dataBytes (spiBits 0x5A ++ rest)).length = rest.length / 8 := by
    rw [dataBytes_spiBits, length_spiBytes]
  have hclosed : (s.spi.setKind .fetch).close (spiBits 0x5A ++ rest) =
      s.spi.closed (spiBits x.status ++ padded (x.dataBits 0x5A) rest.length) := by
    rw [SpiPort.setKind_close, SpiPort.close_open hx]
  refine ⟨fun hempty => ?_, fun r hr => ?_⟩
  · refine hrise.trans ?_
    simp only [State.judgeFetch, hempty, hclosed, Transaction.dataBits_of_empty hempty, padded_nil]
    rfl
  intro frame out
  have hjudge : s.judgeFetch (spiBits 0x5A ++ rest) x =
      if x.collected r (rest.length / 8) then
        { s with
          ctl := { s.ctl with responses := s.ctl.responses.set .spi none }
          spi := { s.spi.closed (spiBits x.status ++ out) with lastResult := .collected } }
      else { s with spi := { s.spi.closed (spiBits x.status ++ out) with lastResult := .kept } } := by
    simp only [State.judgeFetch, hr, hclosed, hcount, Transaction.dataBits_fetch hr]
    rfl
  have hkept : x.collected r (rest.length / 8) = false → ends .kept s.ctl.responses.spi out := fun h => by
    refine hrise.trans ?_
    rw [hjudge, h]
    rfl
  refine ⟨fun hwhole hplaced => ?_, fun hwhole hplaced => hkept ?_, fun hpart => hkept ?_⟩
  · refine hrise.trans ?_
    have hcollected : x.collected r (rest.length / 8) = true := by simp [Transaction.collected, hwhole, hplaced]
    rw [hjudge, hcollected]
    rfl
  · simp [Transaction.collected, hplaced]
  · rw [Transaction.collected, decide_eq_false (Nat.not_le.2 hpart), Bool.false_and]

end Sys2Proof.Proofs
end

section
/-!
PROOFS. The serial link port (R160 to R176): samples and start bits, characters, transmissions and settings.
-/
namespace Sys2Proof.Machine

section
variable {k : LinkPort} {s : State} {rxd : List Bool}

/-! ### Samples (R161, R167, R170) -/

theorem LinkPort.isAssembling_iff (k : LinkPort) : k.isAssembling = true ↔ k.receiver ≠ .hunting := by
  simp [LinkPort.isAssembling]

theorem LinkPort.isAssembling_hear (k : LinkPort) (rxd : List Bool) : (k.hear rxd).isAssembling = k.isAssembling := by
  rw [LinkPort.isAssembling, k.hear_receiver, LinkPort.isAssembling]

theorem LinkPort.gapPassed_iff (k : LinkPort) : k.gapPassed = true ↔ 16 * k.settings.g.toNat + 7 ≤ k.sinceChar := by
  unfold LinkPort.gapPassed Config.bitSamples Config.stopTail
  exact decide_eq_true_iff

theorem LinkPort.sample_eq (k : LinkPort) (b : Bool) :
    k.sample b = { k with
      rxdHigh := b
      idleSamples := if b then min (k.idleSamples + 1) (16 * k.settings.q.toNat) else 0
      sinceChar := if k.receiver = .hunting then k.sinceChar else k.sinceChar + 1 } := by
  have hsince : (if k.isAssembling then k.sinceChar + 1 else k.sinceChar) =
      if k.receiver = .hunting then k.sinceChar else k.sinceChar + 1 := by
    rw [← ite_not (p := k.receiver = .hunting)]
    exact ite_congr (propext k.isAssembling_iff) (fun _ => rfl) fun _ => rfl
  rw [LinkPort.sample, hsince]
  rfl

/-- Sixteen samples at 1 raise the idle count by a bit-time, up to Q (R170). -/
theorem LinkPort.idleCount_hear_sixteen (k : LinkPort) :
    (k.hear (List.replicate 16 true)).idleCount = min (k.idleCount + 1) k.settings.q.toNat := by
  have hsamples := k.hear_high 16 (by decide)
  unfold LinkPort.idleCount Config.bitSamples
  omega

/-- The receiver finds no start bit in the samples and heeds them (R161). -/
theorem State.quietDuring_iff (hr : s.phase = .running) (hq : s.link.transmitter = .quiet) :
    s.quietDuring rxd = true ↔
      s.link.insideChar = false ∧ ¬ ∃ before after, s.link.rxdHigh :: rxd = before ++ true :: false :: after := by
  rw [← falls_iff]
  simp [State.quietDuring, State.hears, State.running, hr, hq]

theorem State.inCharacter_iff (hr : s.phase = .running) (hq : s.link.transmitter = .quiet) :
    s.inCharacter = true ↔ s.link.insideChar = true := by
  simp [State.inCharacter, State.hears, State.running, hr, hq]

/-- A transmission would have begun after the samples (R171). -/
theorem State.sendDue_hear_iff (s : State) (rxd : List Bool) :
    (s.hear rxd).sendDue = true ↔
      ((s.link.receiver = .hunting ∧ s.link.insideChar = false ∧ s.link.transmitter = .quiet) ∧
        s.link.settings.q.toNat ≤ (s.link.hear rxd).idleCount) ∧
      (s.ctl.responses.link ≠ none ∨ s.notices.marker = true) := by
  rw [State.sendDue_iff, LinkPort.lineReady_iff]
  show ((((s.link.hear rxd).receiver = .hunting ∧ (s.link.hear rxd).insideChar = false ∧
    (s.link.hear rxd).transmitter = .quiet) ∧ (s.link.hear rxd).settings.q.toNat ≤ (s.link.hear rxd).idleCount) ∧ _) ↔ _
  rw [LinkPort.hear_receiver, LinkPort.hear_insideChar, LinkPort.hear_transmitter, LinkPort.hear_settings]
  rfl

theorem LinkPort.endGap_kept (h : ¬ (k.receiver ≠ .hunting ∧ 16 * k.settings.g.toNat + 7 ≤ k.sinceChar)) :
    k.endGap = k := by
  refine if_neg fun hboth => h ?_
  obtain ⟨ha, hg⟩ := Bool.and_eq_true_iff.1 hboth
  exact ⟨k.isAssembling_iff.1 ha, k.gapPassed_iff.1 hg⟩

theorem LinkPort.endGap_abandoned (h : k.receiver ≠ .hunting) (hg : 16 * k.settings.g.toNat + 7 ≤ k.sinceChar) :
    k.endGap = k.abandon .gap :=
  if_pos (Bool.and_eq_true_iff.2 ⟨k.isAssembling_iff.2 h, k.gapPassed_iff.2 hg⟩)

/-- The vote on the start bit that nine samples after its first one show (R161). -/
theorem readBit_start (h : rxd.length = 9) :
    readBit (false :: rxd) 0 = decide (2 ≤ [rxd[6]?, rxd[7]?, rxd[8]?].count (some true)) :=
  readBit_eq_count (false :: rxd) 0 (by rw [List.length_cons, h]; decide)

/-! ### Characters (R161 to R169) -/

theorem readData_eq {samples : List Bool} {data : Byte} (h : ∀ i, i < 8 → data.getLsbD i = readBit samples (i + 1)) :
    readData samples = data := by
  rw [readData, ← h 7 (by decide), ← h 6 (by decide), ← h 5 (by decide), ← h 4 (by decide), ← h 3 (by decide),
    ← h 2 (by decide), ← h 1 (by decide), ← h 0 (by decide), byteOfBits_getLsbD_self]

theorem State.examine_address (s : State) (data : Byte) :
    s.examine data true true = { s with link := s.link.addressChar data } := rfl

theorem State.examine_ignored {data : Byte} (h : s.link.receiver = .hunting) : s.examine data false true = s := by
  simp [State.examine, h]

theorem State.examine_data {data : Byte} {broadcast : Bool} {buffer : List Byte}
    (h : s.link.receiver = .assembling broadcast buffer) :
    s.examine data false true = s.dataChar broadcast buffer data := by
  simp [State.examine, h]

theorem checkOk_concat (frame : List Byte) (data : Byte) : checkOk (frame ++ [data]) = true ↔ data = crc8 frame := by
  rw [checkOk_iff, List.getLast?_concat, List.dropLast_concat, Option.some.injEq]

theorem addressed_zero (own : BitVec 4) : addressed own 0 = .assembling true [] := rfl

theorem addressed_own {own : BitVec 4} {data : Byte} (h0 : data ≠ 0) (h : data = own.setWidth 8) :
    addressed own data = .assembling false [] := by
  have hall : ∀ own : BitVec 4, (own.setWidth 8 : Byte) ≠ 0 → addressed own (own.setWidth 8) = .assembling false [] := by
    decide
  rw [h] at h0 ⊢
  exact hall own h0

theorem addressed_other {own : BitVec 4} {data : Byte} (h0 : data ≠ 0) (h : data ≠ own.setWidth 8) :
    addressed own data = .hunting := by
  have hhigh : ∀ data : Byte, data.extractLsb' 4 4 = 0 → data = (data.extractLsb' 0 4).setWidth 8 := by decide
  unfold addressed
  split
  · rfl
  · next hz =>
    have hdata := hhigh data (Classical.not_not.1 hz)
    split
    · next hlow =>
      rw [hlow] at hdata
      exact absurd hdata h0
    · split
      · next hown =>
        rw [hown] at hdata
        exact absurd hdata h
      · rfl

/-! ### The bits of characters on the line (R161) -/

theorem LinkChar.length_bits (c : LinkChar) : c.bits.length = 11 := rfl

/-- The order of a character's bits on the line (R161). -/
theorem LinkChar.getD_bits {c : LinkChar} {b : Nat} (h : b < 11) :
    c.bits.getD b true = if b = 0 then false else if b ≤ 8 then c.data.getLsbD (b - 1) else if b = 9 then c.mark else true := by
  obtain rfl | rfl | rfl | rfl | rfl | rfl | rfl | rfl | rfl | rfl | rfl :
    b = 0 ∨ b = 1 ∨ b = 2 ∨ b = 3 ∨ b = 4 ∨ b = 5 ∨ b = 6 ∨ b = 7 ∨ b = 8 ∨ b = 9 ∨ b = 10 := by omega
  all_goals rfl

/-- In lists of one length, put end to end, an element stands where its list and its place in it say. -/
theorem getD_flatMap_of_length {α β : Type} {f : α → List β} {n j : Nat} {d : β} (hf : ∀ x, (f x).length = n) (hj : j < n) :
    ∀ {l : List α} {i : Nat} {x : α}, l[i]? = some x → (l.flatMap f).getD (n * i + j) d = (f x).getD j d
  | [], _, _, h => nomatch h
  | y :: l, 0, x, h => by
    obtain rfl : y = x := Option.some.inj h
    rw [List.flatMap_cons, Nat.mul_zero, Nat.zero_add, getD_append_of_lt (by rw [hf]; exact hj)]
  | y :: l, i + 1, x, h => by
    rw [List.flatMap_cons, getD_append_of_le (by rw [hf, Nat.mul_succ]; omega), hf,
      show n * (i + 1) + j - n = n * i + j by rw [Nat.mul_succ]; omega]
    exact getD_flatMap_of_length hf hj h

end

end Sys2Proof.Machine

namespace Sys2Proof.Proofs
open Sys2Proof.Machine

/-- Settles O48: the samples one by one, and the events that they end. -/
theorem startBitsAndGaps : Obligations.StartBitsAndGaps := by
  refine ⟨fun k b rest => ⟨rfl, rfl, rfl, k.sample_eq b, fun _ => k.idleCount_hear_sixteen⟩, fun s rxd hphase hquiet => ?_⟩
  intro heard starts passed isFalse abandoned before first due
  have hquietDuring := State.quietDuring_iff (rxd := rxd) hphase hquiet
  have hinside := State.inCharacter_iff hphase hquiet
  have hpassed : (heard.isAssembling && heard.gapPassed) = true ↔ passed := by
    rw [Bool.and_eq_true, LinkPort.isAssembling_hear, LinkPort.isAssembling_iff, LinkPort.gapPassed_iff,
      LinkPort.hear_settings]
  have hdue : s.link.insideChar = false → ((s.hear rxd).sendDue = true ↔ due) := by
    intro hout
    rw [State.sendDue_hear_iff]
    simp only [hout, hquiet, and_true, and_assoc]
    rfl
  have hfirst : (rxd.isEmpty || !(s.link.hear rxd.dropLast).gapPassed) = true ↔ first := by
    rw [Bool.or_eq_true, List.isEmpty_iff, Bool.not_eq_true', Bool.eq_false_iff, ne_eq, LinkPort.gapPassed_iff,
      LinkPort.hear_settings, Nat.not_le]
  have hvote : (rxd.length == 9 && readBit (false :: rxd) 0) = true ↔ isFalse := by
    rw [Bool.and_eq_true, beq_iff_eq]
    exact and_congr_right fun hlen => by rw [readBit_start hlen, decide_eq_true_iff]
  have hstart : (s.quietDuring rxd && heard.rxdHigh && !(heard.isAssembling && heard.gapPassed) &&
      !(s.hear rxd).sendDue) = true ↔
      (s.link.insideChar = false ∧ ¬ starts) ∧ heard.rxdHigh = true ∧ ¬ passed ∧ ¬ (s.hear rxd).sendDue = true := by
    have hnp : (!(heard.isAssembling && heard.gapPassed)) = true ↔ ¬ passed := by
      rw [Bool.not_eq_true', ← Bool.not_eq_true, hpassed]
    have hnd : (!(s.hear rxd).sendDue) = true ↔ ¬ (s.hear rxd).sendDue = true := by
      rw [Bool.not_eq_true', ← Bool.not_eq_true]
    rw [Bool.and_eq_true, Bool.and_eq_true, Bool.and_eq_true, hquietDuring, hnp, hnd, and_assoc, and_assoc]
  have hgap : (s.quietDuring rxd && heard.isAssembling && heard.gapPassed &&
      (rxd.isEmpty || !(s.link.hear rxd.dropLast).gapPassed)) = true ↔
      (s.link.insideChar = false ∧ ¬ starts) ∧ passed ∧ first := by
    rw [Bool.and_eq_true, hfirst, Bool.and_assoc, Bool.and_eq_true, hquietDuring, hpassed, and_assoc]
  have hfalse : (s.inCharacter && rxd.length == 9 && readBit (false :: rxd) 0) = true ↔
      s.link.insideChar = true ∧ isFalse := by
    rw [Bool.and_assoc, Bool.and_eq_true, hinside, hvote]
  refine ⟨fun hout => ⟨fun hns hhigh hnp hnd => if_pos ?_, fun hbad => if_neg ?_, fun hns hp hf => (if_pos (hgap.2 ⟨⟨hout, hns⟩, hp, hf⟩)).trans ?_,
    fun hbad => if_neg ?_, if_neg ?_⟩, fun hin => ⟨fun hf hnp => ?_, fun hf hp => ?_, fun hnf => if_neg ?_, if_neg ?_,
    if_neg ?_⟩⟩
  · exact hstart.2 ⟨⟨hout, hns⟩, hhigh, hnp, fun h => hnd ((hdue hout).1 h)⟩
  · rw [hstart]
    rintro ⟨⟨-, hns⟩, hhigh, hnp, hnd⟩
    obtain h | h | h | h := hbad
    · exact hns h
    · exact absurd (hhigh.symm.trans h) (by decide)
    · exact hnp h
    · exact hnd ((hdue hout).2 h)
  · have hheard : heard.insideChar = false := (LinkPort.hear_insideChar _ _).trans hout
    have hgone : heard.abandon .gap = abandoned := by simp only [LinkPort.abandon, abandoned, hheard]
    exact congrArg (fun k => Host.Outcome.next ({ s with link := k } : State).settleLink) hgone
  · rw [hgap]
    rintro ⟨⟨-, hns⟩, hp, hf⟩
    obtain h | h | h := hbad
    · exact hns h
    · exact h hp
    · exact h hf
  · intro h
    exact absurd ((hfalse.1 h).1.symm.trans hout) (by decide)
  · refine (if_pos (hfalse.2 ⟨hin, hf⟩)).trans ?_
    rw [LinkPort.endGap_kept]
    show ¬ (heard.receiver ≠ .hunting ∧ 16 * heard.settings.g.toNat + 7 ≤ heard.sinceChar)
    rwa [LinkPort.hear_receiver, LinkPort.hear_settings]
  · refine (if_pos (hfalse.2 ⟨hin, hf⟩)).trans ?_
    obtain ⟨hreceiver, hsince⟩ := hp
    rw [LinkPort.endGap_abandoned]
    · rfl
    · show heard.receiver ≠ .hunting
      rwa [LinkPort.hear_receiver]
    · show 16 * heard.settings.g.toNat + 7 ≤ heard.sinceChar
      rwa [LinkPort.hear_settings]
  · exact fun h => hnf (hfalse.1 h).2
  · exact fun h => absurd ((hstart.1 h).1.1.symm.trans hin) (by decide)
  · exact fun h => absurd ((hgap.1 h).1.1.symm.trans hin) (by decide)

/-- Settles O49: what the samples show, and what the receiver does with it. -/
theorem character : Obligations.Character := by
  intro s rxd data hphase hquiet hinside samples bit mark stop
  have hin := (State.inCharacter_iff hphase hquiet).2 hinside
  have hbit : ∀ j, j ≤ 10 → rxd.length = 169 → bit j = readBit samples j := by
    intro j hj hlen
    refine (readBit_eq_count samples j ?_).symm
    rw [List.length_cons, hlen]
    omega
  have hcond : (s.inCharacter && rxd.length == 169 && !readBit samples 0) = true ↔ rxd.length = 169 ∧ bit 0 = false := by
    rw [hin, Bool.true_and, Bool.and_eq_true, beq_iff_eq, Bool.not_eq_true']
    exact and_congr_right fun hlen => by rw [hbit 0 (by decide) hlen]
  refine ⟨fun hbad => if_neg fun h => ?_, fun hlen hzero hdata => ?_⟩
  · obtain ⟨hlen, hzero⟩ := hcond.1 h
    obtain h | h := hbad
    · exact h hlen
    · exact absurd (h.symm.trans hzero) (by decide)
  intro out ends kept assembling
  have hexec : exec (.characterComplete rxd) s =
      .next (({ s with link := out } : State).examine data mark stop).settleLink := by
    refine (if_pos (hcond.2 ⟨hlen, hzero⟩)).trans ?_
    have hread : readData samples = data := readData_eq fun i hi => by rw [hdata i hi, hbit _ (by omega) hlen]
    rw [show readData (false :: rxd) = data from hread, show readMark (false :: rxd) = mark from (hbit 9 (by decide) hlen).symm,
      show readStop (false :: rxd) = stop from (hbit 10 (by decide) hlen).symm]
    rfl
  have hreceiver : out.receiver = s.link.receiver := s.link.hear_receiver rxd
  have hassembling : out.isAssembling = true ↔ assembling := by rw [LinkPort.isAssembling_iff, hreceiver]
  have hends : ∀ {u}, ({ s with link := out } : State).examine data mark stop = u →
      exec (.characterComplete rxd) s = .next u.settleLink := by
    rintro _ rfl
    exact hexec
  refine ⟨fun hs ha => hends ?_, fun hs ha => hends ?_, fun hs hm => ?_, fun hs hm ha => hends ?_,
    fun hs hm broadcast hb => ?_, fun hs hm broadcast len rest hb => ?_⟩
  · rw [hs]
    exact if_pos (hassembling.2 ha)
  · rw [hs]
    exact if_neg fun h => ha (hassembling.1 h)
  · intro error
    have herror : (if out.isAssembling then LinkError.split else out.lastError) = error := by
      rw [show out.lastError = s.link.lastError from s.link.hear_lastError rxd, ← ite_not]
      exact ite_congr (propext (by rw [hassembling, Classical.not_not])) (fun _ => rfl) fun _ => rfl
    have hchar : ∀ {r}, addressed s.link.address data = r → ends { out with receiver := r, lastError := error } kept := by
      rintro _ rfl
      refine hends ?_
      rw [hs, hm, State.examine_address]
      show ({ s with link := { out with
        lastError := if out.isAssembling then .split else out.lastError
        receiver := addressed out.address data } } : State) = _
      rw [herror, show out.address = s.link.address from s.link.hear_address rxd]
    exact ⟨fun h0 => hchar (by rw [h0, addressed_zero]), fun h0 hown => hchar (addressed_own h0 hown),
      fun h0 hother => hchar (addressed_other h0 hother)⟩
  · rw [hs, hm]
    exact State.examine_ignored (hreceiver.trans (Classical.not_not.1 ha))
  · have hdatum : ({ s with link := out } : State).examine data mark stop =
        ({ s with link := out } : State).dataChar broadcast [] data := by
      rw [hs, hm]
      exact State.examine_data (hreceiver.trans hb)
    refine ⟨fun hlow hhigh => hends (hdatum.trans (if_pos ((lenOk_iff data).2 ⟨hlow, hhigh⟩))), fun hbad =>
      hends (hdatum.trans (if_neg fun h => ?_))⟩
    obtain ⟨hlow, hhigh⟩ := (lenOk_iff data).1 h
    omega
  · intro frame
    have hdatum : ({ s with link := out } : State).examine data mark stop =
        ({ s with link := out } : State).dataChar broadcast (len :: rest) data := by
      rw [hs, hm]
      exact State.examine_data (hreceiver.trans hb)
    refine ⟨fun hmore => hends (hdatum.trans (if_neg hmore)), fun hlast => ?_⟩
    have hjudge := hdatum.trans (if_pos hlast)
    have hcheck : ¬ (!checkOk (len :: rest ++ [data])) = true ↔ data = crc8 (len :: rest) := by
      rw [← checkOk_concat, Bool.not_eq_true', Bool.not_eq_false]
    have hoccupied : (s.ctl.commands.link.isSome || s.ctl.responses.link.isSome) = true ↔
        kept.isSome = true ∨ s.ctl.responses.link.isSome = true := by
      rw [Bool.or_eq_true]
    refine ⟨fun hbad => hends (hjudge.trans (if_pos ?_)), fun hgood hfull => hends (hjudge.trans ?_),
      fun hgood hcommand hresponse code seq body hrest => hends (hjudge.trans ?_)⟩
    · refine Classical.byContradiction fun h => ?_
      exact hbad (hcheck.1 h)
    · exact (if_neg (hcheck.2 hgood)).trans (if_pos (hoccupied.2 hfull))
    · have hfree : ¬ (s.ctl.commands.link.isSome || s.ctl.responses.link.isSome) = true := by
        rw [hoccupied, show kept = none from hcommand, hresponse]
        simp
      refine ((if_neg (hcheck.2 hgood)).trans (if_neg hfree)).trans ?_
      have hframe : frameCommand (len :: rest ++ [data]) broadcast =
          some { code := code, seq := seq, body := body, broadcast := broadcast } := by
        rw [hrest]
        show some ({ code := code, seq := seq, body := (body ++ [data]).dropLast, broadcast := broadcast } : CommandFrame) = _
        rw [List.dropLast_concat]
      rw [hframe]
      rfl

/-- Settles O50: when a transmission begins and ends, and what is on the line between. -/
theorem transmission : Obligations.Transmission := by
  intro s rxd n hphase own heard starts free first
  have hrunning : s.running = true := (State.running_iff s).2 hphase
  have hbegin : exec (.transmissionBegin rxd) s =
      if s.quietDuring rxd && (s.hear rxd).sendDue && (rxd.isEmpty || !(s.hear rxd.dropLast).sendDue) then
        .next (s.hear rxd).beginSending
      else .next s := rfl
  have hnot : (!(s.hear rxd.dropLast).sendDue) = true ↔ ¬ (s.hear rxd.dropLast).sendDue = true := by
    rw [Bool.not_eq_true', ← Bool.not_eq_true]
  refine ⟨fun hfree hfirst => ?_, fun hbad => ?_, fun hquiet => ?_, fun what chars sent hsending => ?_⟩
  · obtain ⟨hquiet, hreceiver, hinside, hns, hidle⟩ := hfree
    have hready : (s.hear rxd).link.lineReady = true := by
      rw [LinkPort.lineReady_iff]
      show ((heard.receiver = .hunting ∧ heard.insideChar = false ∧ heard.transmitter = .quiet) ∧
        heard.settings.q.toNat ≤ heard.idleCount)
      rw [LinkPort.hear_receiver, LinkPort.hear_insideChar, LinkPort.hear_transmitter, LinkPort.hear_settings]
      exact ⟨⟨hreceiver, hinside, hquiet⟩, hidle⟩
    have hnow : s.ctl.responses.link ≠ none ∨ s.notices.marker = true →
        exec (.transmissionBegin rxd) s = .next (s.hear rxd).beginSending := by
      intro hwaiting
      refine if_pos ?_
      rw [Bool.and_eq_true, Bool.and_eq_true, State.quietDuring_iff hphase hquiet, State.sendDue_hear_iff, Bool.or_eq_true,
        List.isEmpty_iff, hnot, State.sendDue_hear_iff]
      refine ⟨⟨⟨hinside, hns⟩, ⟨⟨hreceiver, hinside, hquiet⟩, hidle⟩, hwaiting⟩, hfirst.imp_right fun hlow => ?_⟩
      exact fun h => absurd h.1.2 (Nat.not_le.2 hlow)
    have hcharacters : ∀ bytes, heard.characters bytes = own :: bytes.map fun b => { data := b, mark := false } := by
      intro bytes
      rw [LinkPort.characters, LinkPort.addressFrom, LinkPort.hear_address]
    refine ⟨fun r hr => ?_, fun hr hm => ?_⟩
    · rw [hnow (.inl (by rw [hr]; nofun)), State.beginSending_response hready hr]
      show Host.Outcome.next ({ s with link := heard.send .response (responseBytes r) } : State) = _
      rw [LinkPort.send, hcharacters]
    · rw [hnow (.inr hm), State.beginSending_marker hready hr hm]
      show Host.Outcome.next ({ s with link := heard.send .marker [Config.markerChar]
                                       notices := { s.notices with marker := false } } : State) = _
      rw [LinkPort.send, hcharacters]
      rfl
  · rw [hbegin, if_neg]
    rw [Bool.and_eq_true, Bool.and_eq_true, State.sendDue_hear_iff, Bool.or_eq_true, List.isEmpty_iff, hnot,
      State.sendDue_hear_iff]
    rintro ⟨⟨hquietDuring, ⟨⟨hreceiver, hinside, hquiet⟩, hidle⟩, hwaiting⟩, hfirst⟩
    obtain ⟨-, hns⟩ := (State.quietDuring_iff hphase hquiet).1 hquietDuring
    obtain h | h | ⟨hr, hm⟩ := hbad
    · exact h ⟨hquiet, hreceiver, hinside, hns, hidle⟩
    · obtain ⟨hne, hlow⟩ := not_or.1 h
      exact hfirst.elim hne fun hnot => hnot ⟨⟨⟨hreceiver, hinside, hquiet⟩, Nat.not_lt.1 hlow⟩, hwaiting⟩
    · exact hwaiting.elim (fun h => h hr) fun h => absurd (h.symm.trans hm) (by decide)
  · refine ⟨(if_pos hrunning).trans ?_, ?_, ?_⟩
    · rw [hquiet]
    · rw [LinkPort.driverEnabled, hquiet]
    · rw [LinkPort.txd, hquiet]
  · have hend : exec (.transmissionEnd n) s =
        if sent + n = framePeriods chars then .next (s.endSending what).settleLink else .next s := by
      refine (if_pos hrunning).trans ?_
      rw [hsending]
    rw [show framePeriods chars = 176 * chars.length from rfl] at hend
    refine ⟨fun heq => ?_, fun hne => ?_, ?_, fun c hc => ?_⟩
    · rw [hend, if_pos heq]
      cases what <;> rfl
    · rw [hend, if_neg hne]
    · rw [LinkPort.driverEnabled, hsending]
    · intro b
      have hplace : sent / Config.bitSamples = 11 * (sent / 176) + b := by
        show sent / 16 = 11 * (sent / 176) + sent % 176 / 16
        omega
      have hb : b < 11 := show sent % 176 / 16 < 11 by omega
      rw [LinkPort.txd, hsending]
      exact (congrArg (fun i => (chars.flatMap LinkChar.bits).getD i true) hplace).trans
        ((getD_flatMap_of_length LinkChar.length_bits hb hc).trans (LinkChar.getD_bits hb))

/-- Settles O51: LINK_CONFIG, LINK_STATUS, and the settings that come into force. -/
theorem linkSettingsCommands : Obligations.LinkSettingsCommands := by
  refine fun c s => ⟨fun d0 d1 g q ht hsrc hbody => ?_, fun ht hbody => ?_, fun hphase => ?_⟩
  · intro w
    have hp : Permit.admits .spiOnly c.src.port = true := by rw [hsrc]; rfl
    have hl : c.body.length = 4 := by rw [hbody]; rfl
    refine ⟨fun hbad => ?_, fun hrange => ?_⟩
    · have hread : readLinkConfigBody c.body = none := by
        rw [hbody]
        exact if_neg hbad
      exact exec_range (fun _ => rfl) ht hl hp hread rfl
    · have hread : readLinkConfigBody c.body = some w := by
        rw [hbody]
        exact if_pos hrange
      exact ok_of (exec_body (i := .linkConfig c) (fun _ => rfl) ht hl hp hread rfl) rfl
  · have hrun := exec_run (i := .linkStatus c) (fun _ => rfl) ht (by rw [hbody]; rfl) rfl
    refine ok_of hrun ?_
    show Answer.ok (linkRecord s.link) _ = _
    rw [linkRecord]
    cases s.link.pendingSettings <;> rfl
  · intro idle
    have hexec : exec .pendingSettingsInForce s = .next s.settlePending := if_pos ((State.running_iff s).2 hphase)
    have hidle : s.linkIdle = true ↔ idle := by
      rw [State.linkIdle_iff]
      simp only [and_assoc]
      rfl
    refine ⟨fun w hi hw => ?_, fun hnot => ?_⟩
    · rw [hexec, State.settlePending, if_pos (hidle.2 hi), LinkPort.applyPending, hw]
    · rw [hexec, State.settlePending]
      split
      · next h =>
        have hnone := hnot.resolve_left (Classical.not_not.2 (hidle.1 h))
        rw [LinkPort.applyPending, hnone]
      · rfl

end Sys2Proof.Proofs
end

section
/-!
PROOFS. An empty queue: one cycle of REFCLK in which nothing comes (R73, R105, R160; log 1).
-/
namespace Sys2Proof.Machine

section
variable {s : State}

/-! ### The cycles of the selected clock -/

/-- The part with other triggers, responses and link, and another last sample of the FREEZE pin: what a cycle of REFCLK
has written by the time the cycles of the selected clock pass. -/
def State.sampledAs (s u : State) : State :=
  { s with
    triggers := u.triggers, ctl := u.ctl, link := u.link
    time := { s.time with freezeSample := u.time.freezeSample } }

/-- Cycles neither read nor write what `sampledAs` replaces. -/
theorem State.cycles_sampledAs (s u : State) (n : Nat) : (s.sampledAs u).cycles n = (s.cycles n).sampledAs u := by
  unfold State.cycles
  rw [apply_ite (State.sampledAs · u), apply_ite (State.sampledAs · u), apply_ite (State.sampledAs · u)]
  rfl

theorem State.cycleByCycle_sampledAs (u : State) (n : Nat) (s : State) :
    State.cycleByCycle n (s.sampledAs u) = (State.cycleByCycle n s).sampledAs u := by
  induction n generalizing s with
  | zero => rfl
  | succ n ih => rw [State.cycleByCycle, State.cycles_sampledAs, ih, State.cycleByCycle]

theorem State.cycleByCycle_held (h : s.time.advancing = false) (n : Nat) : State.cycleByCycle n s = s := by
  induction n with
  | zero => rfl
  | succ n ih => rw [State.cycleByCycle, State.cycles_held h, ih]

theorem TimeBase.cyclesPerRef_eq (t : TimeBase) :
    t.cyclesPerRef = if t.source = .ref ∨ t.n = 0 then 1 else t.n.toNat := by
  unfold TimeBase.cyclesPerRef TimeBase.multiplier
  cases h : t.source <;> simp

/-- One cycle of the clock in a running part, said of the time base (R117, R118). -/
theorem State.cycle_time (hr : s.phase = .running) (h : s.time.advancing = true) :
    (s.time.prescaler + 1 < 2 ^ s.time.exponent.toNat →
      (s.cycles 1).time = { s.time with prescaler := s.time.prescaler + 1 }) ∧
    (s.time.prescaler + 1 = 2 ^ s.time.exponent.toNat →
      (s.cycles 1).time =
        if (∃ e ∈ s.dueList, 65535 ≤ s.waited e ∨ s.keyOf e = Config.mostPast) then s.time else s.time.ticked) := by
  rw [State.cycles_advancing hr h]
  refine ⟨fun hless => ?_, fun heq => ?_⟩
  · rw [if_pos (show s.time.prescaler + 1 < s.time.tickCycles from hless)]
  · rw [if_neg (show ¬ s.time.prescaler + 1 < s.time.tickCycles from Nat.not_lt.2 (Nat.le_of_eq heq.symm))]
    by_cases hfirst : ∃ e ∈ s.dueList, 65535 ≤ s.waited e ∨ s.keyOf e = Config.mostPast
    · rw [if_pos hfirst, if_neg fun hticks => Bool.eq_false_iff.1 hticks.2 ((State.firesFirst_iff s).2 hfirst)]
    · have hwaits : s.firesFirst = false := Bool.eq_false_iff.2 fun hf => hfirst ((State.firesFirst_iff s).1 hf)
      rw [if_neg hfirst, if_pos ⟨heq, hwaits⟩]

/-! ### The sample periods of the link port -/

theorem State.lineCycle_counts (h : s.link.divider + 1 < s.link.settings.d.toNat) :
    s.lineCycle = { s with link := { s.link with divider := s.link.divider + 1 } } :=
  if_pos h

/-- Every D cycles make a sample period (R160). -/
theorem State.lineCycle_samples (h : s.link.settings.d.toNat ≤ s.link.divider + 1) :
    s.lineCycle = ({ s with link := { s.link with divider := 0 } } : State).restPeriod :=
  if_neg (Nat.not_lt.2 h)

theorem State.restPeriod_inside (hq : s.link.transmitter = .quiet) (h : s.link.insideChar = true) :
    s.restPeriod = s := by
  rw [State.restPeriod, hq]
  exact if_pos h

theorem State.restPeriod_outside (hq : s.link.transmitter = .quiet) (h : s.link.insideChar = false) :
    s.restPeriod = { s with link := (s.link.sample true).endGap } := by
  rw [State.restPeriod, hq]
  exact if_neg (Bool.eq_false_iff.1 h)

section
variable {what : SentFrame} {chars : List LinkChar} {sent : Nat}

theorem State.restPeriod_sends (hs : s.link.transmitter = .sending what chars sent) (h : sent + 1 < 176 * chars.length) :
    s.restPeriod = { s with link := { s.link with transmitter := .sending what chars (sent + 1) } } := by
  rw [State.restPeriod, hs]
  exact if_pos h

theorem State.restPeriod_ends (hs : s.link.transmitter = .sending what chars sent) (h : 176 * chars.length ≤ sent + 1) :
    s.restPeriod = s.endSending what := by
  rw [State.restPeriod, hs]
  exact if_neg (Nat.not_lt.2 h)

end

/-! ### The whole cycle before the link is settled -/

/-- A running part after a cycle of REFCLK, the link not yet settled. -/
def State.clocked (s : State) : State := State.cycleByCycle s.time.cyclesPerRef s.restInputs.lineCycle

theorem State.refCycle_running (h : s.phase = .running) : s.refCycle = s.clocked.settleLink :=
  if_pos ((State.running_iff s).2 h)

theorem State.refCycle_stopped (h : s.phase ≠ .running) : s.refCycle = s :=
  if_neg fun hr => h ((State.running_iff s).1 hr)

/-- The inputs and the link port come first, and the clock's cycles change the time base alone. -/
theorem State.clocked_eq (s : State) :
    s.clocked = (State.cycleByCycle s.time.cyclesPerRef s).sampledAs s.restInputs.lineCycle := by
  rw [State.clocked, ← State.cycleByCycle_sampledAs, State.lineCycle_frame]
  rfl

theorem State.clocked_time (s : State) :
    s.clocked.time =
      { (State.cycleByCycle s.time.cyclesPerRef s).time with freezeSample := s.time.freezePin } := by
  rw [State.clocked_eq, State.lineCycle_frame]
  rfl

theorem State.clocked_frame (s : State) :
    s.clocked = { s with
      time := s.clocked.time, link := s.clocked.link, triggers := s.clocked.triggers
      ctl := { s.ctl with responses := s.clocked.ctl.responses } } := by
  rw [State.clocked, State.cycleByCycle_frame, State.lineCycle_frame]
  rfl

theorem State.clocked_triggers (s : State) (k : Fin 8) :
    s.clocked.triggers.get k = { s.triggers.get k with sample := (s.triggers.get k).level } := by
  rw [State.clocked, State.cycleByCycle_frame, State.lineCycle_frame]
  exact get_map _ _ _

/-- On the line a cycle of REFCLK does what it does at the port and the response slots. -/
theorem State.clocked_line {k : LinkPort} (h : s.restInputs.lineCycle = { s.restInputs with link := k }) :
    s.clocked.link = k ∧ s.clocked.ctl = s.ctl := by
  rw [State.clocked_eq, h]
  exact ⟨rfl, rfl⟩

end

end Sys2Proof.Machine

namespace Sys2Proof.Proofs
open Sys2Proof.Machine

/-- Settles O2: a step on an empty queue is one cycle of REFCLK. -/
theorem emptyQueueRunsClock : Obligations.EmptyQueueRunsClock := by
  intro s hqueue
  have hstep : step s = .next s.refCycle := by rw [step, hqueue]
  refine ⟨fun hstopped => by rw [hstep, State.refCycle_stopped hstopped], fun hphase => ⟨s.clocked,
    by rw [hstep, State.refCycle_running hphase], s.clocked_frame, s.clocked_triggers, ?_⟩⟩
  intro rested
  refine ⟨by rw [← TimeBase.cyclesPerRef_eq]; exact s.clocked_time, fun hheld => ?_, fun hfrozen hchange hhold href => ?_,
    ?_⟩
  · have hnot : s.time.advancing = false := Bool.eq_false_iff.2 fun h => by
      obtain ⟨hfrozen, hchange, hhold⟩ := (TimeBase.advancing_iff _).1 h
      obtain h | h | h := hheld
      · exact absurd (h.symm.trans hfrozen) (by decide)
      · exact h hchange
      · exact absurd (h.symm.trans hhold) (by decide)
    rw [State.clocked_time, State.cycleByCycle_held hnot]
  · have hone : s.time.cyclesPerRef = 1 := by rw [TimeBase.cyclesPerRef, href]
    have htime : s.clocked.time = { (s.cycles 1).time with freezeSample := s.time.freezePin } := by
      rw [State.clocked_time, hone]
      rfl
    obtain ⟨hcounts, hticks⟩ := State.cycle_time hphase ((TimeBase.advancing_iff _).2 ⟨hfrozen, hchange, hhold⟩)
    refine ⟨fun hless => by rw [htime, hcounts hless], fun heq => ?_⟩
    rw [htime, hticks heq]
    split <;> rfl
  · intro line
    refine ⟨fun hcounts => State.clocked_line (State.lineCycle_counts hcounts), fun hsample => ?_⟩
    intro sampled passed
    have hperiod : s.restInputs.lineCycle = ({ s.restInputs with link := { s.link with divider := 0 } } : State).restPeriod :=
      State.lineCycle_samples hsample
    have houtside : s.link.transmitter = .quiet → s.link.insideChar = false →
        s.restInputs.lineCycle = { s.restInputs with link := sampled.endGap } := fun hquiet hinside =>
      hperiod.trans (State.restPeriod_outside (s := { s.restInputs with link := { s.link with divider := 0 } }) hquiet hinside)
    refine ⟨fun hquiet hinside => ?_, fun hquiet hinside hgap => ?_, fun hquiet hinside hgap => ?_,
      fun what chars sent hsending => ⟨fun hmore => ?_, fun hlast => ?_⟩⟩
    · exact State.clocked_line (hperiod.trans (State.restPeriod_inside hquiet hinside))
    · have hkept : sampled.endGap = sampled := LinkPort.endGap_kept hgap
      exact State.clocked_line ((houtside hquiet hinside).trans
        (congrArg (fun k => ({ s.restInputs with link := k } : State)) hkept))
    · have habandoned : sampled.endGap = sampled.abandon .gap := LinkPort.endGap_abandoned hgap.1 hgap.2
      exact State.clocked_line ((houtside hquiet hinside).trans
        (congrArg (fun k => ({ s.restInputs with link := k } : State)) habandoned))
    · exact State.clocked_line (hperiod.trans (State.restPeriod_sends hsending hmore))
    · have hends := hperiod.trans (State.restPeriod_ends hsending hlast)
      rw [State.clocked_eq, hends]
      exact ⟨rfl, by cases what <;> rfl⟩

end Sys2Proof.Proofs
end

section
/-!
PROOFS. Frames and characters read back (R146, R151, R161, R181, R182).
-/
namespace Sys2Proof.Machine

theorem length_commandBytes (code seq : Byte) (body : List Byte) : (commandBytes code seq body).length = body.length + 4 :=
  length_frameBytes _

/-- LEN of a command frame counts what follows it (Table 10.7). -/
theorem commandBytes_len {body : List Byte} (h : body.length ≤ 44) (code seq : Byte) :
    ∃ len rest, commandBytes code seq body = len :: rest ∧ lenOk len = true ∧ rest.length = len.toNat := by
  obtain ⟨len, hdef⟩ : ∃ len, len = BitVec.ofNat 8 (body.length + 3) := ⟨_, rfl⟩
  have hlen : len.toNat = body.length + 3 := by rw [hdef]; exact Nat.mod_eq_of_lt (by omega)
  refine ⟨len, code :: seq :: body ++ [crc8 (len :: code :: seq :: body)], by rw [hdef]; rfl, (lenOk_iff _).2 ?_, ?_⟩
  · omega
  · rw [hlen, List.length_append]
    rfl

theorem frameCommand_commandBytes (code seq : Byte) (body : List Byte) (broadcast : Bool) :
    frameCommand (commandBytes code seq body) broadcast =
      some { code := code, seq := seq, body := body, broadcast := broadcast } := by
  have hbody : ∀ check : Byte, (body ++ [check]).dropLast = body := fun _ => List.dropLast_concat
  exact congrArg (fun b => some ({ code := code, seq := seq, body := b, broadcast := broadcast } : CommandFrame)) (hbody _)

theorem voted_self (b : Bool) : voted b b b = b := by cases b <;> rfl

/-- A bit that stands on the line for its sixteen samples is read as it is (R161). -/
theorem readBit_flatMap_replicate {bits : List Bool} {i : Nat} {b : Bool} (h : bits[i]? = some b) :
    readBit (bits.flatMap (List.replicate 16)) i = b := by
  have hsample : ∀ j, j < 16 → (bits.flatMap (List.replicate 16)).getD (16 * i + j) true = b := fun j hj => by
    rw [getD_flatMap_of_length (fun _ => List.length_replicate) hj h, List.getD_eq_getElem?_getD, List.getElem?_replicate_of_lt hj]
    rfl
  show voted ((bits.flatMap (List.replicate 16)).getD (16 * i + 7) true)
    ((bits.flatMap (List.replicate 16)).getD (16 * i + 8) true)
    ((bits.flatMap (List.replicate 16)).getD (16 * i + 9) true) = b
  rw [hsample 7 (by decide), hsample 8 (by decide), hsample 9 (by decide), voted_self]

theorem LinkChar.bits_data (c : LinkChar) {i : Nat} (h : i < 8) : c.bits[i + 1]? = some (c.data.getLsbD i) := by
  obtain rfl | rfl | rfl | rfl | rfl | rfl | rfl | rfl :
    i = 0 ∨ i = 1 ∨ i = 2 ∨ i = 3 ∨ i = 4 ∨ i = 5 ∨ i = 6 ∨ i = 7 := by omega
  all_goals rfl

end Sys2Proof.Machine

namespace Sys2Proof.Proofs
open Sys2Proof.Machine

/-- Settles O53: a command frame, SPI bytes and a character's samples give back what they were made from. -/
theorem frameRoundTrip : Obligations.FrameRoundTrip := by
  refine ⟨fun code seq body broadcast hbody => ⟨length_commandBytes code seq body, checkOk_frameBytes _,
    commandBytes_len hbody code seq, frameCommand_commandBytes code seq body broadcast⟩,
    fun bytes _ hpart => spiBytes_flatMap bytes hpart, fun c => ⟨?_, ?_, ?_, ?_⟩⟩
  · exact readBit_flatMap_replicate (show c.bits[0]? = some false from rfl)
  · exact readData_eq fun i hi => (readBit_flatMap_replicate (c.bits_data hi)).symm
  · exact readBit_flatMap_replicate (show c.bits[9]? = some c.mark from rfl)
  · exact readBit_flatMap_replicate (show c.bits[10]? = some true from rfl)

end Sys2Proof.Proofs
end

section
/-!
PROOFS. The resets (R140 to R144; log 2, log 13, log 24), and the reset state.
-/
namespace Sys2Proof.Machine

section
variable {i : Instr} {s t : State} {p : Port} {k : Fin 8}

/-! ### What leaves the phase -/

@[simp] theorem State.takeEdge_phase (s : State) (k : Fin 8) : (s.takeEdge k).phase = s.phase := by
  rw [State.takeEdge_eq, State.armAll_frame]
  rfl

theorem Effect.phase (h : Effect i p s t) : t.phase = s.phase := by
  cases h with
  | move e a b => rw [State.move_frame]
  | _ => rfl

/-! ### A part that does not run (R144) -/

/-- The values that a part keeps while a reset holds it (R142, R144, R159). -/
def State.HeldValues (s : State) : Prop :=
  ResetLaw s ∧ s.spi.cut = none ∧ (s.ctl.resetCause = .powerOn ∨ s.ctl.resetCause = .pin)

theorem heldLaw_iff (s : State) : HeldLaw s ↔ (s.phase ≠ .running → s.HeldValues) := Iff.rfl

theorem HeldLaw.of_running (hp : t.phase = s.phase) (hr : s.phase = .running) : HeldLaw t :=
  fun hstopped => absurd (hp.trans hr) hstopped

theorem heldValues_reset (cause : ResetCause) (hcause : cause = .powerOn ∨ cause = .pin) {link : LinkPort} {phase : Phase}
    {address : BitVec 4} {settings : LinkSettings} (hlink : link = LinkPort.initial address settings) (s : State) :
    ({ s.resetBlocks cause link with phase := phase } : State).HeldValues := by
  subst hlink
  exact ⟨resetLaw_resetBlocks s cause ⟨rfl, rfl, rfl, rfl⟩ ⟨rfl, rfl, rfl, rfl, rfl, rfl, rfl, rfl⟩, rfl, hcause⟩

/-- The straps leave a link port its reset values. -/
theorem ResetLaw.strap (h : ResetLaw s) (phase : Phase) (address : BitVec 4) (settings : LinkSettings) :
    ResetLaw { s with phase := phase, link := LinkPort.initial address settings } :=
  { h with link := ⟨rfl, rfl, rfl, rfl, Nat.zero_div _, rfl, rfl, rfl, rfl⟩ }

/-- A sample of a trigger input leaves the trigger its reset values. -/
theorem ResetLaw.sample (h : ResetLaw s) (k : Fin 8) (b : Bool) :
    ResetLaw (s.setTrigger k { s.triggers.get k with sample := b }) :=
  { h with
    triggers := fun j => by
      rw [State.setTrigger_triggers, get_set]
      split
      · exact h.triggers k
      · exact h.triggers j }

theorem ResetLaw.canGain (h : ResetLaw s) (fRef : Nat) : s.time.canGain fRef = false := by
  obtain ⟨hsynth, -⟩ := h.synth
  refine Bool.eq_false_iff.2 fun hgain => ?_
  obtain ⟨hstate, -⟩ := (s.time.canGain_iff fRef).1 hgain
  rw [hsynth] at hstate
  exact absurd hstate (by decide)

theorem ResetLaw.not_locked (h : ResetLaw s) : s.time.synth ≠ .locked := by
  obtain ⟨hsynth, -⟩ := h.synth
  rw [hsynth]
  decide

theorem ResetLaw.completing (h : ResetLaw s) : s.time.completing = none := by
  obtain ⟨-, hchange, -⟩ := h.source
  rw [TimeBase.completing, hchange]

theorem State.running_of_hears (h : s.hears = true) : s.phase = .running :=
  (State.running_iff s).1 (Bool.and_eq_true_iff.1 h).1

theorem State.cycles_stopped (h : s.phase ≠ .running) (n : Nat) : s.cycles n = s := by
  rw [State.cycles, Bool.eq_false_iff.2 fun hr => h ((State.running_iff s).1 hr)]
  rfl

theorem HeldLaw.event (h : Occurs i s t) (hs : HeldLaw s) : HeldLaw t := by
  cases h with
  | none => exact hs
  | fire e a due h => exact .of_running (by rw [State.settleLink_phase, State.fireEntry_frame]) h.running
  | edge k hr => exact .of_running (s.takeEdge_phase k) hr
  | selOpens x hr => exact .of_running rfl hr
  | startBit rxd h => exact .of_running rfl (State.running_of_hears (s := s) h)
  | falseStart rxd h | gap rxd h => exact .of_running (State.settleLink_phase _) (State.running_of_hears (s := s) h)
  | character rxd data mark stop h =>
    exact .of_running (by rw [State.settleLink_phase, State.examine_frame]) (State.running_of_hears (s := s) h)
  | transmissionBegin rxd h => exact .of_running (by rw [State.beginSending_frame]; rfl) (State.running_of_hears (s := s) h)
  | transmissionEnd what chars sent hr => exact .of_running (State.settleLink_phase _) hr
  | pendingInForce hr => exact .of_running (by rw [State.settlePending_frame]) hr
  | firstLevels level sample pin last => exact fun ht => absurd rfl ht
  | powerOn adr lspd low => exact fun _ => heldValues_reset .powerOn (.inl rfl) rfl s
  | nresetAssert => exact fun _ => heldValues_reset .pin (.inr rfl) rfl s
  | nresetRelease adr lspd hheld =>
    obtain ⟨hreset, hcut, hcause⟩ := hs (by rw [hheld]; decide)
    exact fun _ => ⟨hreset.strap _ _ _, hcut, hcause⟩
  | tick n =>
    intro ht
    rw [State.cycles_stopped (by rwa [State.cycles_frame] at ht)]
    exact hs (by rwa [State.cycles_frame] at ht)
  | triggerSample k b =>
    intro ht
    obtain ⟨hreset, hcut, hcause⟩ := hs ht
    exact ⟨hreset.sample k b, hcut, hcause⟩
  | lockGained fRef h f =>
    intro ht
    obtain ⟨hreset, -⟩ := hs (by rwa [State.postTime_phase] at ht)
    exact absurd h (Bool.eq_false_iff.1 (hreset.canGain fRef))
  | lockLost h f =>
    intro ht
    obtain ⟨hreset, -⟩ := hs (by rwa [State.postTime_phase] at ht)
    exact absurd h hreset.not_locked
  | changeover target h f =>
    intro ht
    obtain ⟨hreset, -⟩ := hs (by rwa [State.postTime_phase] at ht)
    exact absurd (h.symm.trans hreset.completing) nofun
  | freezeSample b | freezePin pin sample =>
    intro ht
    obtain ⟨hreset, hcut, hcause⟩ := hs ht
    exact ⟨{ hreset with }, hcut, hcause⟩
  | selLevel b =>
    intro ht
    obtain ⟨hreset, hcut, hcause⟩ := hs ht
    exact ⟨{ hreset with }, hcut, hcause⟩
  | selEnds x h =>
    intro ht
    obtain ⟨hreset, hcut, -⟩ := hs ht
    obtain ⟨hclosed, -⟩ := hreset.spi
    exact absurd h (not_or.2 ⟨Classical.not_not.2 hclosed, Classical.not_not.2 hcut⟩)
  | commandJudged x slot h | fetched x h =>
    intro ht
    obtain ⟨hreset, -⟩ := hs ht
    obtain ⟨hclosed, -⟩ := hreset.spi
    exact absurd hclosed h
theorem HeldLaw.setPending (h : HeldLaw s) (rest : List Instr) : HeldLaw { s with pending := rest } := by
  intro ht
  obtain ⟨hreset, hcut, hcause⟩ := h ht
  exact ⟨{ hreset with }, hcut, hcause⟩

@[simp] theorem State.reply_phase (s : State) (src : Source) (r : Response) : (s.reply src r).phase = s.phase := by
  cases src <;> rfl

theorem Executes.phase {a : Answer} (h : Executes i p s a) : a.state.phase = s.phase := by
  obtain ⟨r, -, rfl⟩ | ⟨-, heffect⟩ := h
  · rfl
  · exact heffect.phase

/-- A command is taken by a running part alone, and leaves it running (R127, R144). -/
theorem HeldLaw.command {code : Byte} {c : Cmd} {a : Answer} (htakes : s.takes code c = true)
    (h : Executes i c.src.port (during s c) a) : HeldLaw (a.finish code c) := by
  obtain ⟨hr, -⟩ := (s.takes_iff code c).1 htakes
  refine .of_running ?_ hr
  rw [Answer.finish, State.settleLink_phase, State.reply_phase, h.phase]
  rfl

theorem HeldLaw.refCycle (hs : HeldLaw s) : HeldLaw s.refCycle := by
  by_cases hr : s.phase = .running
  · exact .of_running (by rw [State.refCycle_frame]) hr
  · rwa [State.refCycle_stopped hr]

theorem HeldLaw.step (hs : HeldLaw s) (h : step s = .next t) : HeldLaw t := by
  obtain ⟨-, rfl⟩ | ⟨i, rest, s₀, -, rfl, ⟨code, c, a, -, htakes, hexecutes, rfl⟩ | hoccurs⟩ := step_cases h
  · exact hs.refCycle
  · exact .command htakes hexecutes
  · exact (hs.setPending rest).event hoccurs

/-- What the pins show while NRESET is held (R144, R159). -/
theorem heldValues_pins (h : s.HeldValues) (hheld : s.phase = .held) (sdi : List Bool) (sckHigh : Bool) :
    s.notices.notice0 = false ∧ s.link.driverEnabled = false ∧ s.link.txd = true ∧ s.sdoPin sdi sckHigh = none ∧
      ∀ l, s.lines.pin l = none := by
  obtain ⟨hreset, -⟩ := h
  obtain ⟨hqueues, -⟩ := hreset.notices
  obtain ⟨-, -, -, -, -, hquiet, -⟩ := hreset.link
  obtain ⟨-, hdrives⟩ := hreset.levels
  refine ⟨?_, ?_, ?_, State.sdoPin_released (.inl hheld), fun l => ?_⟩
  · rw [NoticeUnit.notice0, hqueues]
    rfl
  · rw [LinkPort.driverEnabled, hquiet]
  · rw [LinkPort.txd, hquiet]
  · rw [LineUnit.pin, hdrives, if_neg]
    exact Bool.eq_false_iff.1 BitVec.getLsbD_zero

/-! ### The first levels (R73, R89, R144; log 24) -/

/-- Two successive samples agree. -/
def Agree (xs : List Bool) : Prop := ∃ before b after, xs = before ++ b :: b :: after

theorem allPassed_iff (samples : List InputSample) :
    allPassed samples = true ↔
      (∀ k : Fin 8, Agree (samples.map (·.trigger k))) ∧ Agree (samples.map (·.freezePin)) := by
  simp only [allPassed, Bool.and_eq_true, List.all_eq_true, List.mem_finRange, true_implies, passedLevel_isSome]
  rfl

/-- The level and the last sample of an input that has passed a first level. -/
theorem Agree.shows {xs : List Bool} (h : Agree xs) (level last : Bool) :
    xs.getLast? = some (xs.getLastD last) ∧
      ∃ before after, xs = before ++ (passedLevel xs).getD level :: (passedLevel xs).getD level :: after ∧
        ∀ p b q, (passedLevel xs).getD level :: after ≠ p ++ b :: b :: q := by
  obtain ⟨passed, hpassed⟩ := Option.isSome_iff_exists.1 ((passedLevel_isSome xs).2 h)
  obtain ⟨before, after, hxs, hlast⟩ := (passedLevel_eq_some xs passed).1 hpassed
  rw [hpassed, Option.getD_some]
  refine ⟨?_, before, after, hxs, fun p b q heq => ?_⟩
  · have hne : xs ≠ [] := by rw [hxs]; simp
    rw [List.getLastD_eq_getLast?, List.getLast?_eq_some_getLast hne, Option.getD_some]
  · have hsome := (passedLevel_isSome (passed :: after)).2 ⟨p, b, q, heq⟩
    rw [hlast] at hsome
    exact absurd hsome (by decide)

end

end Sys2Proof.Machine

namespace Sys2Proof.Proofs
open Sys2Proof.Machine

/-- Settles O52: the resets, the part held by one, and the first levels after it. -/
theorem resets : Obligations.Resets := by
  refine ⟨fun s t hs h => hs.step h, fun s sdi sckHigh hs hheld =>
    heldValues_pins (hs (by rw [hheld]; decide)) hheld sdi sckHigh, fun s adr lspd low samples => ?_⟩
  intro strapped passed shows
  have hstrapped : strapped (LinkPort.strapped adr lspd) := ⟨rfl, rfl, rfl, rfl⟩
  have hpassed : ∀ xs, allPassed xs = true ↔ passed xs := allPassed_iff
  refine ⟨⟨_, rfl, (heldValues_reset .powerOn (.inl rfl) rfl s).1, rfl, hstrapped, rfl, rfl⟩,
    fun hnot => ⟨_, if_neg hnot, (heldValues_reset .pin (.inr rfl) rfl s).1, rfl, rfl, rfl, rfl, rfl⟩,
    fun hheld hreset => ⟨_, if_pos hheld, hreset.strap _ _ _, hstrapped, rfl⟩, fun hsettling hall hlast => ?_,
    fun hheld => if_pos hheld, fun hnot => if_neg hnot, fun hbad => if_neg ?_⟩
  · have hboth := (hpassed samples).2 hall
    have hbefore : allPassed samples.dropLast = false := Bool.eq_false_iff.2 fun h => hlast ((hpassed _).1 h)
    obtain ⟨htriggers, hpin⟩ := (allPassed_iff samples).1 hboth
    exact ⟨_, if_pos ⟨hsettling, hboth, hbefore⟩, rfl, hpin.shows _ _, fun k => ⟨_, _, get_ofFn _ _, (htriggers k).shows _ _⟩⟩
  · rintro ⟨hsettling, hall, hbefore⟩
    obtain h | h | h := hbad
    · exact h hsettling
    · exact h ((hpassed _).1 hall)
    · exact Bool.eq_false_iff.1 hbefore ((hpassed _).2 h)

end Sys2Proof.Proofs
end

section
/-!
PROOFS. The reset state meets every law of the part (R142).
-/
namespace Sys2Proof.Machine

/-- The reset state is what a power-on reset makes of itself. -/
theorem State.reset_resetBlocks : State.reset.resetBlocks .powerOn State.reset.link = State.reset := by
  have htriggers : State.reset.triggers.map (fun t => Trigger.initial t.level t.sample) = State.reset.triggers :=
    Vector.map_replicate
  show { State.reset with triggers := State.reset.triggers.map fun t => Trigger.initial t.level t.sample } = State.reset
  rw [htriggers]

theorem resetLaw_reset : ResetLaw State.reset := by
  rw [← State.reset_resetBlocks]
  exact resetLaw_resetBlocks State.reset .powerOn ⟨rfl, rfl, rfl, rfl⟩ ⟨rfl, rfl, rfl, rfl, rfl, rfl, rfl, rfl⟩

theorem ResetLaw.ownedCount {s : State} (h : ResetLaw s) (p : Port) : s.ownedCount p = 0 := by
  simp [State.ownedCount_eq, h.free, ownedBy]

theorem ResetLaw.listLaws {s : State} (h : ResetLaw s) : ListLaws s :=
  .of_free h.free h.due fun k => by
    obtain ⟨-, -, -, -, hpark⟩ := h.triggers k
    exact hpark

end Sys2Proof.Machine

namespace Sys2Proof.Proofs
open Sys2Proof.Machine

/-- Settles O54: the values of the reset state, and the laws it meets. -/
theorem resetState : Obligations.ResetState := by
  have hfree := resetLaw_reset.free
  have hcount : State.reset.freeCount = 256 := by rw [State.freeCount, resetLaw_reset.ownedCount, resetLaw_reset.ownedCount]
  obtain ⟨hquota, hchain⟩ : EntryLaws State.reset := .of_free hfree rfl
  obtain ⟨hlists, horder, hprompt⟩ := (listLaws_iff State.reset).1 resetLaw_reset.listLaws
  obtain ⟨haction, hgroup⟩ := (lineLaws_iff State.reset).1 (.of_free hfree rfl)
  have hnotices : NoticeLaws State.reset :=
    (NoticeLaws.resetBlocks State.reset .powerOn State.reset.link).of_entries rfl rfl
  obtain ⟨hnotice, hmarker⟩ := (noticeLaws_iff State.reset).1 hnotices
  have hlink : LinkLaw State.reset := LinkBase.law_of_reset ⟨LinkPort.ranged_strapped 0 0, .inl rfl, nofun⟩ rfl rfl
  exact ⟨resetLaw_reset, rfl, rfl, rfl, hcount, rfl, hquota, hchain, hlists, horder, hprompt, haction, hgroup, hnotice,
    hmarker, timeLaw_initial false false, hlink, .of_running rfl rfl⟩

end Sys2Proof.Proofs
end
